-- ==== Sys2Proof/Word.lean ====
section
/-! DEFINITION. The widths of 00_scope.md R6: bytes, words, physical addresses and I/O addresses. -/

namespace Sys2Proof

/-- Eight bits (R6). -/
abbrev Byte := BitVec 8

/-- Sixteen bits: two bytes, a 16-bit register, a logical address (R6). -/
abbrev Word := BitVec 16

/-- A 24-bit physical memory address (R6, R69). -/
abbrev PhysAddr := BitVec 24

/-- A 24-bit I/O address (R6, R280). -/
abbrev IoAddr := BitVec 24

end Sys2Proof
end

