-- ==== Sys2Proof/Config.lean ====
section
/-! DEFINITION. What one machine, or one environment, fixes: the parameters of 00_scope.md R7 as plain data, and
the values the spec leaves open as constants without a body. -/

namespace Sys2Proof

/-- The two privilege modes (60_exceptions.md R350). -/
inductive Mode
  | system
  | user
  deriving DecidableEq, Repr

/-- The two kinds of memory access (20_memory.md R62). -/
inductive Kind
  | program
  | data
  deriving DecidableEq, Repr

/-- A logical memory space: a mode and a kind (R62). -/
structure Space where
  mode : Mode
  kind : Kind
  deriving DecidableEq, Repr

/-- What an access does (20_memory.md R66). -/
inductive Access
  | read
  | write
  | fetch
  deriving DecidableEq, Repr

/-- What `Translate` answers: a physical address, or a violation with the descriptor's WP and Valid bits (R66). -/
inductive Translation
  | phys (p : PhysAddr)
  | violation (wp valid : Bool)
  deriving DecidableEq, Repr

/-- One point at which `Translate` is not the identity. A list of these holds any function of R66, since its domain
is finite; nothing is assumed of a page size or of a descriptor's layout (log 11, DESIGN CHOICE of form, safe). -/
structure TransEntry where
  space : Space
  access : Access
  addr : Word
  result : Translation
  deriving DecidableEq, Repr

/-- A range of physical addresses, both ends included, that `MemMap` does not back (R69; log 12). -/
structure Hole where
  first : PhysAddr
  last : PhysAddr
  deriving DecidableEq, Repr

/-- The parameters of 00_scope.md R7. No instruction writes them: a run keeps the ones it is launched with. A
statement about every state therefore holds for every choice of them (log 4). -/
structure Platform where
  /-- `BUS16`: the external data bus is 16 bits wide (R8). -/
  bus16 : Bool
  /-- `EPU_PRESENT`: an EPU is attached; no rule reads it (49_extended.md R320). -/
  epuPresent : Bool
  /-- `MSR_US`: the position of the user/system mode bit in MSR (R45). -/
  msrUS : Fin 16
  /-- The polarity of `MSR_US`: the bit's value that means user mode (R7). -/
  userWhen : Bool
  /-- `MSR_BH`: the position of the Breakpoint-on-Halt bit in MSR (R45). -/
  msrBH : Fin 16
  /-- `MSR_SS`: the position of the Single-Step bit in MSR (R45). -/
  msrSS : Fin 16
  /-- `MSR_IEA`: which of MSR bits 6:0 is the Interrupt A enable bit (R45). -/
  msrIEA : Fin 7
  /-- `TCR_I`: the position of the Inhibit User I/O bit in TCR (R48). -/
  tcrI : Fin 8
  /-- `TCR_E`: the position of the EPA bit in TCR (R48); no rule reads the bit (R322). -/
  tcrE : Fin 8
  /-- `TCR_S`: the position of the stack-warning enable bit in TCR (R48). -/
  tcrS : Fin 8
  /-- `StackWarn(sp, slr)`: the pairs for which it is true (R338; log 13). -/
  stackWarn : List (Word × Word)
  /-- `Translate`: the points at which it is not the identity (R66; log 11). -/
  translate : List TransEntry
  /-- `MemMap`: the ranges it does not back (R69; log 12). -/
  holes : List Hole
  deriving DecidableEq, Repr

/-- The defaults of R7, with its suggested bit positions where it says OPEN (log 4: PRESUMED, unsafe). -/
def Platform.default : Platform where
  bus16 := true
  epuPresent := false
  msrUS := 14
  userWhen := true
  msrBH := 12
  msrSS := 8
  msrIEA := 0
  tcrI := 0
  tcrE := 1
  tcrS := 2
  stackWarn := []
  translate := []
  holes := []

/-- The bit positions name different bits, and none of the MSR ones is an interrupt enable (R45: bits 6:0 are the
seven interrupt enables). -/
def Platform.wf (c : Platform) : Bool :=
  decide (7 ≤ c.msrUS.val) && decide (7 ≤ c.msrBH.val) && decide (7 ≤ c.msrSS.val)
    && decide (c.msrUS ≠ c.msrBH) && decide (c.msrUS ≠ c.msrSS) && decide (c.msrBH ≠ c.msrSS)
    && decide (c.tcrI ≠ c.tcrE) && decide (c.tcrI ≠ c.tcrS) && decide (c.tcrE ≠ c.tcrS)

/-- Whether an input transaction moves a byte or a word (47_io.md R281). -/
inductive IoWidth
  | byte
  | word
  deriving DecidableEq, Repr

namespace Config

/-- The n-th unconstrained value drawn in a run: the any1, any8 and any16 of R14 are bits of it (log 5: a FREE
VALUE, safe). -/
opaque freeValue : Nat → Word

/-- The environment's answer to the n-th input transaction of a run, at an address and of a width; a byte
transaction uses the low eight bits (47_io.md R281; log 10: a FREE VALUE, safe). -/
opaque ioIn : Nat → IoAddr → IoWidth → Word

/-- The "part of the logical address that caused the page fault" which the MMU latches (20_memory.md R67); which
part it is the spec does not say (log 18: a FREE VALUE, safe). -/
opaque latchedPart : Word → Word

end Config

end Sys2Proof
end

