-- ==== Sys2Proof/Syntax.lean ====
section
/-! DEFINITION. The instructions: one constructor per row of spec/opcode_table.json, the two rows of LDA that are
aliases of LDW rows apart (30_encoding.md R117). -/

namespace Sys2Proof

/-- The 8-bit registers an encoding names (30_encoding.md R96). -/
inductive R8
  | b | c | d | e | h | l | a
  deriving DecidableEq, Repr

/-- The index registers (10_state.md R33). -/
inductive XY
  | ix | iy
  deriving DecidableEq, Repr

/-- A byte of an index register: IXH or IYH, IXL or IYL (R97). -/
inductive Half
  | hi | lo
  deriving DecidableEq, Repr

/-- The base of the indexed mode X: `xx` of R92. -/
inductive XX
  | ix | iy | hl
  deriving DecidableEq, Repr

/-- The register pair of the base index mode: `jj` of R92. -/
inductive BX
  | hlIx | hlIy | ixIy
  deriving DecidableEq, Repr

/-- The 16-bit registers: `ww` of R92 without an index prefix (R99). -/
inductive RR
  | bc | de | hl | sp
  deriving DecidableEq, Repr

/-- `ww` of R92 where the destination is an index register: code 10 names that register itself (R99). -/
inductive RRX
  | bc | de | self | sp
  deriving DecidableEq, Repr

/-- The pointer of `LD A,(RR)` and `LD (RR),A`: `e` of R92. -/
inductive BD
  | bc | de
  deriving DecidableEq, Repr

/-- The condition codes of CALL and JP (R110). -/
inductive CC
  | nz | z | nc | c | po | pe | p | m
  deriving DecidableEq, Repr

/-- The condition codes of JR (R110). -/
inductive JCC
  | nz | z | nc | c
  deriving DecidableEq, Repr

/-- One constructor per row of spec/opcode_table.json, in the table's order: first the rows with operands, then those
without (Lean's runtime numbers at most 245 constructors that have arguments). Operand bytes keep the width they have
in the encoding; a two-byte operand is one `Word` (R70). -/
inductive Instr
  /-- `LD R1,R2` (R131). -/
  | ldReg (r : R8) (r2 : R8)
  /-- `LD R*,RX` (R131). -/
  | ldGRx (xy : XY) (g : R8) (half : Half)
  /-- `LD RXA,RXB` (R131). -/
  | ldRxRx (xy : XY) (half : Half) (half2 : Half)
  /-- `LD RX,R*` (R131). -/
  | ldRxG (xy : XY) (half : Half) (g : R8)
  /-- `LD R,(HL)` (R132). -/
  | ldRHl (r : R8)
  /-- `LD R,(XY + d)` (R132). -/
  | ldRSx (xy : XY) (r : R8) (d : Byte)
  /-- `LD (HL),R` (R133). -/
  | ldHlR (r : R8)
  /-- `LD (XY + d),R` (R133). -/
  | ldSxR (xy : XY) (r : R8) (d : Byte)
  /-- `LD R,n` (R134). -/
  | ldRN (r : R8) (n : Byte)
  /-- `LD RX,n` (R134). -/
  | ldRxN (xy : XY) (half : Half) (n : Byte)
  /-- `LD (HL),n` (R134). -/
  | ldHlN (n : Byte)
  /-- `LD (addr),n` (R134). -/
  | ldDaN (addr : Word) (n : Byte)
  /-- `LD (XX + dd),n` (R134). -/
  | ldXN (base : XX) (dd : Word) (n : Byte)
  /-- `LD (XY + d),n` (R134). -/
  | ldSxN (xy : XY) (d : Byte) (n : Byte)
  /-- `LD <addr>,n` (R134). -/
  | ldRaN (disp : Word) (n : Byte)
  /-- `LD (SP + dd),n` (R134). -/
  | ldSrN (dd : Word) (n : Byte)
  /-- `LD (XXA + XXB),n` (R134). -/
  | ldBxN (pair : BX) (n : Byte)
  /-- `LD A,(RR)` (R135). -/
  | ldAIr (bd : BD)
  /-- `LD A,(addr)` (R135). -/
  | ldADa (addr : Word)
  /-- `LD A,(XX + dd)` (R135). -/
  | ldAX (base : XX) (dd : Word)
  /-- `LD A,<addr>` (R135). -/
  | ldARa (disp : Word)
  /-- `LD A,(SP + dd)` (R135). -/
  | ldASr (dd : Word)
  /-- `LD A,(XXA + XXB)` (R135). -/
  | ldABx (pair : BX)
  /-- `LD (RR),A` (R136). -/
  | ldIrA (bd : BD)
  /-- `LD (addr),A` (R136). -/
  | ldDaA (addr : Word)
  /-- `LD (XX + dd),A` (R136). -/
  | ldXA (base : XX) (dd : Word)
  /-- `LD <addr>,A` (R136). -/
  | ldRaA (disp : Word)
  /-- `LD (SP + dd),A` (R136). -/
  | ldSrA (dd : Word)
  /-- `LD (XXA + XXB),A` (R136). -/
  | ldBxA (pair : BX)
  /-- `EX A,R` (R137). -/
  | exAR (r : R8)
  /-- `EX A,RX` (R137). -/
  | exARx (xy : XY) (half : Half)
  /-- `EX A,(addr)` (R137). -/
  | exADa (addr : Word)
  /-- `EX A,(XX + dd)` (R137). -/
  | exAX (base : XX) (dd : Word)
  /-- `EX A,(XY + d)` (R137). -/
  | exASx (xy : XY) (d : Byte)
  /-- `EX A,<addr>` (R137). -/
  | exARa (disp : Word)
  /-- `EX A,(SP + dd)` (R137). -/
  | exASr (dd : Word)
  /-- `EX A,(XXA + XXB)` (R137). -/
  | exABx (pair : BX)
  /-- `LDUD A,(XY + d)` (R141). -/
  | ldudASx (xy : XY) (d : Byte)
  /-- `LDUD (XY + d),A` (R141). -/
  | ldudSxA (xy : XY) (d : Byte)
  /-- `LDUP A,(XY + d)` (R142). -/
  | ldupASx (xy : XY) (d : Byte)
  /-- `LDUP (XY + d),A` (R142). -/
  | ldupSxA (xy : XY) (d : Byte)
  /-- `EX XY,HL` (R151). -/
  | exXyHl (xy : XY)
  /-- `EX (SP),XY` (R155). -/
  | exSpXy (xy : XY)
  /-- `LDA HL,(XX + dd)` (R156). -/
  | ldaHlX (base : XX) (dd : Word)
  /-- `LDA XY,(XX + dd)` (R156). -/
  | ldaXyX (xy : XY) (base : XX) (dd : Word)
  /-- `LDA HL,<addr>` (R156). -/
  | ldaHlRa (disp : Word)
  /-- `LDA XY,<addr>` (R156). -/
  | ldaXyRa (xy : XY) (disp : Word)
  /-- `LDA HL,(SP + dd)` (R156). -/
  | ldaHlSr (dd : Word)
  /-- `LDA XY,(SP + dd)` (R156). -/
  | ldaXySr (xy : XY) (dd : Word)
  /-- `LDA HL,(XXA + XXB)` (R156). -/
  | ldaHlBx (pair : BX)
  /-- `LDA XY,(XXA + XXB)` (R156). -/
  | ldaXyBx (xy : XY) (pair : BX)
  /-- `LDW RR,nn` (R157). -/
  | ldwRrN (w : RR) (nn : Word)
  /-- `LDW XY,nn` (R157). -/
  | ldwXyN (xy : XY) (nn : Word)
  /-- `LDW (HL),nn` (R157). -/
  | ldwHlN (nn : Word)
  /-- `LDW (addr),nn` (R157). -/
  | ldwDaN (addr : Word) (nn : Word)
  /-- `LDW <addr>,nn` (R157). -/
  | ldwRaN (disp : Word) (nn : Word)
  /-- `ADC A,R` (R191). -/
  | adcAR (r : R8)
  /-- `ADC A,RX` (R191). -/
  | adcARx (xy : XY) (half : Half)
  /-- `ADC A,n` (R191). -/
  | adcAN (n : Byte)
  /-- `ADC A,(addr)` (R191). -/
  | adcADa (addr : Word)
  /-- `ADC A,(XX + dd)` (R191). -/
  | adcAX (base : XX) (dd : Word)
  /-- `ADC A,(XY + d)` (R191). -/
  | adcASx (xy : XY) (d : Byte)
  /-- `ADC A,<addr>` (R191). -/
  | adcARa (disp : Word)
  /-- `ADC A,(SP + dd)` (R191). -/
  | adcASr (dd : Word)
  /-- `ADC A,(XXA + XXB)` (R191). -/
  | adcABx (pair : BX)
  /-- `ADD A,R` (R192). -/
  | addAR (r : R8)
  /-- `ADD A,RX` (R192). -/
  | addARx (xy : XY) (half : Half)
  /-- `ADD A,n` (R192). -/
  | addAN (n : Byte)
  /-- `ADD A,(addr)` (R192). -/
  | addADa (addr : Word)
  /-- `ADD A,(XX + dd)` (R192). -/
  | addAX (base : XX) (dd : Word)
  /-- `ADD A,(XY + d)` (R192). -/
  | addASx (xy : XY) (d : Byte)
  /-- `ADD A,<addr>` (R192). -/
  | addARa (disp : Word)
  /-- `ADD A,(SP + dd)` (R192). -/
  | addASr (dd : Word)
  /-- `ADD A,(XXA + XXB)` (R192). -/
  | addABx (pair : BX)
  /-- `AND A,R` (R193). -/
  | andAR (r : R8)
  /-- `AND A,RX` (R193). -/
  | andARx (xy : XY) (half : Half)
  /-- `AND A,n` (R193). -/
  | andAN (n : Byte)
  /-- `AND A,(addr)` (R193). -/
  | andADa (addr : Word)
  /-- `AND A,(XX + dd)` (R193). -/
  | andAX (base : XX) (dd : Word)
  /-- `AND A,(XY + d)` (R193). -/
  | andASx (xy : XY) (d : Byte)
  /-- `AND A,<addr>` (R193). -/
  | andARa (disp : Word)
  /-- `AND A,(SP + dd)` (R193). -/
  | andASr (dd : Word)
  /-- `AND A,(XXA + XXB)` (R193). -/
  | andABx (pair : BX)
  /-- `CP A,R` (R194). -/
  | cpAR (r : R8)
  /-- `CP A,RX` (R194). -/
  | cpARx (xy : XY) (half : Half)
  /-- `CP A,n` (R194). -/
  | cpAN (n : Byte)
  /-- `CP A,(addr)` (R194). -/
  | cpADa (addr : Word)
  /-- `CP A,(XX + dd)` (R194). -/
  | cpAX (base : XX) (dd : Word)
  /-- `CP A,(XY + d)` (R194). -/
  | cpASx (xy : XY) (d : Byte)
  /-- `CP A,<addr>` (R194). -/
  | cpARa (disp : Word)
  /-- `CP A,(SP + dd)` (R194). -/
  | cpASr (dd : Word)
  /-- `CP A,(XXA + XXB)` (R194). -/
  | cpABx (pair : BX)
  /-- `DEC R` (R197). -/
  | decR (r : R8)
  /-- `DEC RX` (R197). -/
  | decRx (xy : XY) (half : Half)
  /-- `DEC (addr)` (R197). -/
  | decDa (addr : Word)
  /-- `DEC (XX + dd)` (R197). -/
  | decX (base : XX) (dd : Word)
  /-- `DEC (XY + d)` (R197). -/
  | decSx (xy : XY) (d : Byte)
  /-- `DEC <addr>` (R197). -/
  | decRa (disp : Word)
  /-- `DEC (SP + dd)` (R197). -/
  | decSr (dd : Word)
  /-- `DEC (XXA + XXB)` (R197). -/
  | decBx (pair : BX)
  /-- `DIV HL,R` (R198). -/
  | divR (r : R8)
  /-- `DIV HL,RX` (R198). -/
  | divRx (xy : XY) (half : Half)
  /-- `DIV HL,n` (R198). -/
  | divN (n : Byte)
  /-- `DIV HL,(addr)` (R198). -/
  | divDa (addr : Word)
  /-- `DIV HL,(XX + dd)` (R198). -/
  | divX (base : XX) (dd : Word)
  /-- `DIV HL,(XY + d)` (R198). -/
  | divSx (xy : XY) (d : Byte)
  /-- `DIV HL,<addr>` (R198). -/
  | divRa (disp : Word)
  /-- `DIV HL,(SP + dd)` (R198). -/
  | divSr (dd : Word)
  /-- `DIV HL,(XXA + XXB)` (R198). -/
  | divBx (pair : BX)
  /-- `DIVU HL,R` (R199). -/
  | divuR (r : R8)
  /-- `DIVU HL,RX` (R199). -/
  | divuRx (xy : XY) (half : Half)
  /-- `DIVU HL,n` (R199). -/
  | divuN (n : Byte)
  /-- `DIVU HL,(addr)` (R199). -/
  | divuDa (addr : Word)
  /-- `DIVU HL,(XX + dd)` (R199). -/
  | divuX (base : XX) (dd : Word)
  /-- `DIVU HL,(XY + d)` (R199). -/
  | divuSx (xy : XY) (d : Byte)
  /-- `DIVU HL,<addr>` (R199). -/
  | divuRa (disp : Word)
  /-- `DIVU HL,(SP + dd)` (R199). -/
  | divuSr (dd : Word)
  /-- `DIVU HL,(XXA + XXB)` (R199). -/
  | divuBx (pair : BX)
  /-- `INC R` (R201). -/
  | incR (r : R8)
  /-- `INC RX` (R201). -/
  | incRx (xy : XY) (half : Half)
  /-- `INC (addr)` (R201). -/
  | incDa (addr : Word)
  /-- `INC (XX + dd)` (R201). -/
  | incX (base : XX) (dd : Word)
  /-- `INC (XY + d)` (R201). -/
  | incSx (xy : XY) (d : Byte)
  /-- `INC <addr>` (R201). -/
  | incRa (disp : Word)
  /-- `INC (SP + dd)` (R201). -/
  | incSr (dd : Word)
  /-- `INC (XXA + XXB)` (R201). -/
  | incBx (pair : BX)
  /-- `ADC HL,RR` (R221). -/
  | adcHlRr (w : RR)
  /-- `ADC XY,RR` (R221). -/
  | adcXyRr (xy : XY) (w : RRX)
  /-- `ADD HL,RR` (R222). -/
  | addHlRr (w : RR)
  /-- `ADD XY,RR` (R222). -/
  | addXyRr (xy : XY) (w : RRX)
  /-- `ADD XY,A` (R223). -/
  | addXyA (xy : XY)
  /-- `ADDW HL,RR` (R224). -/
  | addwRr (w : RR)
  /-- `ADDW HL,XY` (R224). -/
  | addwXy (xy : XY)
  /-- `ADDW HL,nn` (R224). -/
  | addwN (nn : Word)
  /-- `ADDW HL,(addr)` (R224). -/
  | addwDa (addr : Word)
  /-- `ADDW HL,(XY + dd)` (R224). -/
  | addwX (xy : XY) (dd : Word)
  /-- `ADDW HL,<addr>` (R224). -/
  | addwRa (disp : Word)
  /-- `CPW HL,RR` (R225). -/
  | cpwRr (w : RR)
  /-- `CPW HL,XY` (R225). -/
  | cpwXy (xy : XY)
  /-- `CPW HL,nn` (R225). -/
  | cpwN (nn : Word)
  /-- `CPW HL,(addr)` (R225). -/
  | cpwDa (addr : Word)
  /-- `CPW HL,(XY + dd)` (R225). -/
  | cpwX (xy : XY) (dd : Word)
  /-- `CPW HL,<addr>` (R225). -/
  | cpwRa (disp : Word)
  /-- `DECW RR` (R226). -/
  | decwRr (w : RR)
  /-- `DECW XY` (R226). -/
  | decwXy (xy : XY)
  /-- `DECW (addr)` (R226). -/
  | decwDa (addr : Word)
  /-- `DECW (XY + dd)` (R226). -/
  | decwX (xy : XY) (dd : Word)
  /-- `DECW <addr>` (R226). -/
  | decwRa (disp : Word)
  /-- `DIVW DEHL,RR` (R227). -/
  | divwRr (w : RR)
  /-- `DIVW DEHL,XY` (R227). -/
  | divwXy (xy : XY)
  /-- `DIVW DEHL,nn` (R227). -/
  | divwN (nn : Word)
  /-- `DIVW DEHL,(addr)` (R227). -/
  | divwDa (addr : Word)
  /-- `DIVW DEHL,(XY + dd)` (R227). -/
  | divwX (xy : XY) (dd : Word)
  /-- `DIVW DEHL,<addr>` (R227). -/
  | divwRa (disp : Word)
  /-- `DIVUW DEHL,RR` (R228). -/
  | divuwRr (w : RR)
  /-- `DIVUW DEHL,XY` (R228). -/
  | divuwXy (xy : XY)
  /-- `DIVUW DEHL,nn` (R228). -/
  | divuwN (nn : Word)
  /-- `DIVUW DEHL,(addr)` (R228). -/
  | divuwDa (addr : Word)
  /-- `DIVUW DEHL,(XY + dd)` (R228). -/
  | divuwX (xy : XY) (dd : Word)
  /-- `DIVUW DEHL,<addr>` (R228). -/
  | divuwRa (disp : Word)
  /-- `INCW RR` (R230). -/
  | incwRr (w : RR)
  /-- `INCW XY` (R230). -/
  | incwXy (xy : XY)
  /-- `INCW (addr)` (R230). -/
  | incwDa (addr : Word)
  /-- `INCW (XY + dd)` (R230). -/
  | incwX (xy : XY) (dd : Word)
  /-- `INCW <addr>` (R230). -/
  | incwRa (disp : Word)
  /-- `BIT b,R` (R251). -/
  | bitR (bit : BitVec 3) (r : R8)
  /-- `BIT b,(HL)` (R251). -/
  | bitHl (bit : BitVec 3)
  /-- `BIT b,(XY + d)` (R251). -/
  | bitSx (xy : XY) (d : Byte) (bit : BitVec 3)
  /-- `CALL cc,(HL)` (R260). -/
  | callCcHl (cc : CC)
  /-- `CALL cc,addr` (R260). -/
  | callCc (cc : CC) (addr : Word)
  /-- `CALL addr` (R260). -/
  | callDa (addr : Word)
  /-- `CALL cc,<addr>` (R260). -/
  | callCcRa (cc : CC) (disp : Word)
  /-- `CALL <addr>` (R260). -/
  | callRa (disp : Word)
  /-- `DJNZ addr` (R263). -/
  | djnz (disp : Byte)
  /-- `JP cc,(HL)` (R264). -/
  | jpCcHl (cc : CC)
  /-- `JP (XY)` (R264). -/
  | jpXy (xy : XY)
  /-- `JP cc,addr` (R264). -/
  | jpCc (cc : CC) (addr : Word)
  /-- `JP addr` (R264). -/
  | jpDa (addr : Word)
  /-- `JP cc,<addr>` (R264). -/
  | jpCcRa (cc : CC) (disp : Word)
  /-- `JP <addr>` (R264). -/
  | jpRa (disp : Word)
  /-- `JR cc,addr` (R265). -/
  | jrCc (jcc : JCC) (disp : Byte)
  /-- `JR addr` (R265). -/
  | jr (disp : Byte)
  /-- `JAF addr` (R266). -/
  | jaf (disp : Byte)
  /-- `JAR addr` (R267). -/
  | jar (disp : Byte)
  /-- `IN R,(C)` (R285). -/
  | inR (r : R8)
  /-- `IN RX,(C)` (R285). -/
  | inRx (xy : XY) (half : Half)
  /-- `IN (addr),(C)` (R285). -/
  | inDa (addr : Word)
  /-- `IN (XX + dd),(C)` (R285). -/
  | inX (base : XX) (dd : Word)
  /-- `IN <addr>,(C)` (R285). -/
  | inRa (disp : Word)
  /-- `IN (SP + dd),(C)` (R285). -/
  | inSr (dd : Word)
  /-- `IN (XXA + XXB),(C)` (R285). -/
  | inBx (pair : BX)
  /-- `IN A,(n)` (R286). -/
  | inAN (n : Byte)
  /-- `DI mask` (R302). -/
  | diMask (mask : Byte)
  /-- `EI mask` (R301). -/
  | eiMask (mask : Byte)
  /-- `LDCTL XY,(C)` (R310). -/
  | ldctlXyC (xy : XY)
  /-- `LDCTL (C),XY` (R310). -/
  | ldctlCXy (xy : XY)
  /-- `LDCTL XY,USP` (R311). -/
  | ldctlXyUsp (xy : XY)
  /-- `LDCTL USP,XY` (R311). -/
  | ldctlUspXy (xy : XY)
  /-- `EX A,(HL)` (R137). -/
  | exAHl
  /-- `EX H,L` (R138). -/
  | exHL
  /-- `LDUD A,(HL)` (R141). -/
  | ldudAHl
  /-- `LDUD (HL),A` (R141). -/
  | ldudHlA
  /-- `LDUP A,(HL)` (R142). -/
  | ldupAHl
  /-- `LDUP (HL),A` (R142). -/
  | ldupHlA
  /-- `EX DE,HL` (R151). -/
  | exDeHl
  /-- `EX AF,AF'` (R152). -/
  | exAfAf
  /-- `EXX` (R153). -/
  | exx
  /-- `EX (SP),HL` (R155). -/
  | exSpHl
  /-- `LDI` (R171). -/
  | ldi
  /-- `LDD` (R172). -/
  | ldd
  /-- `LDIR` (R173). -/
  | ldir
  /-- `LDDR` (R174). -/
  | lddr
  /-- `CPI` (R175). -/
  | cpi
  /-- `CPD` (R176). -/
  | cpd
  /-- `CPIR` (R177). -/
  | cpir
  /-- `CPDR` (R179). -/
  | cpdr
  /-- `ADC A,(HL)` (R191). -/
  | adcAHl
  /-- `ADD A,(HL)` (R192). -/
  | addAHl
  /-- `AND A,(HL)` (R193). -/
  | andAHl
  /-- `CP A,(HL)` (R194). -/
  | cpAHl
  /-- `CPL A` (R195). -/
  | cpl
  /-- `DAA` (R196). -/
  | daa
  /-- `DEC (HL)` (R197). -/
  | decHl
  /-- `DIV HL,(HL)` (R198). -/
  | divHl
  /-- `DIVU HL,(HL)` (R199). -/
  | divuHl
  /-- `EXTS A` (R200). -/
  | extsA
  /-- `INC (HL)` (R201). -/
  | incHl
  /-- `ADD HL,A` (R223). -/
  | addHlA
  /-- `ADDW HL,(HL)` (R224). -/
  | addwHl
  /-- `CPW HL,(HL)` (R225). -/
  | cpwHl
  /-- `DECW (HL)` (R226). -/
  | decwHl
  /-- `DIVW DEHL,(HL)` (R227). -/
  | divwHl
  /-- `DIVUW DEHL,(HL)` (R228). -/
  | divuwHl
  /-- `EXTS HL` (R229). -/
  | extsHl
  /-- `INCW (HL)` (R230). -/
  | incwHl
  /-- `CALL (HL)` (R260). -/
  | callHl
  /-- `CCF` (R262). -/
  | ccf
  /-- `JP (HL)` (R264). -/
  | jpHl
  /-- `INW HL,(C)` (R287). -/
  | inw
  /-- `INI` (R288). -/
  | ini
  /-- `INIW` (R288). -/
  | iniw
  /-- `IND` (R289). -/
  | ind
  /-- `INDW` (R289). -/
  | indw
  /-- `INIR` (R290). -/
  | inir
  /-- `INIRW` (R290). -/
  | inirw
  /-- `INDR` (R291). -/
  | indr
  /-- `INDRW` (R291). -/
  | indrw
  /-- `DI` (R302). -/
  | di
  /-- `EI` (R301). -/
  | ei
  /-- `HALT` (R303). -/
  | halt
  /-- `IM 0` (R304). -/
  | im0
  /-- `IM 1` (R304). -/
  | im1
  /-- `IM 2` (R304). -/
  | im2
  /-- `IM 3` (R304). -/
  | im3
  /-- `LD I,A` (R305). -/
  | ldIA
  /-- `LD R,A` (R306). -/
  | ldRfA
  /-- `LD A,I` (R307). -/
  | ldAI
  /-- `LD A,R` (R308). -/
  | ldARf
  /-- `LDCTL HL,(C)` (R310). -/
  | ldctlHlC
  /-- `LDCTL (C),HL` (R310). -/
  | ldctlCHl
  /-- `LDCTL HL,USP` (R311). -/
  | ldctlHlUsp
  /-- `LDCTL USP,HL` (R311). -/
  | ldctlUspHl
  deriving DecidableEq, Repr

end Sys2Proof
end

