-- ==== Sys2Proof/Machine/State.lean ====
section
/-! DEFINITION. The machine's state as plain data: every piece of state 10_state.md names, its value after reset, and
the reasons a step can stop. -/

namespace Sys2Proof.Machine

/-- The flag register F as its eight bits (10_state.md R36): S 7, Z 6, bit 5, H 4, bit 3, P/V 2, N 1, C 0. F is never
read or written as a byte by an instruction: it moves whole, with its bank (R30; log 6). -/
structure Flags where
  s : Bool
  z : Bool
  b5 : Bool
  h : Bool
  b3 : Bool
  pv : Bool
  n : Bool
  c : Bool
  deriving DecidableEq, Repr

/-- One copy of the accumulator and of the flag register (R32). -/
structure AF where
  a : Byte
  f : Flags
  deriving DecidableEq, Repr

/-- One copy of the byte/word registers (R31, R32). -/
structure GP where
  bc : Word
  de : Word
  hl : Word
  deriving DecidableEq, Repr

/-- Physical memory (20_memory.md R69): the bytes that differ from `00`, addresses strictly rising (log 3). -/
structure Memory where
  cells : List Host.Cell
  deriving DecidableEq, Repr

/-- One input transaction of the I/O trace: `(in, ioaddr, n, value)` of 47_io.md R281. -/
structure IoEvent where
  addr : IoAddr
  width : IoWidth
  value : Word
  deriving DecidableEq, Repr

/-- The machine's state. INVENTORY.md lists every field with the rule that names it and its reset value. -/
structure State where
  /-- A and F, primary bank (R32). -/
  bankAF0 : AF
  /-- A and F, auxiliary bank (R32). -/
  bankAF1 : AF
  /-- BC, DE, HL, primary bank (R32). -/
  bankGP0 : GP
  /-- BC, DE, HL, auxiliary bank (R32). -/
  bankGP1 : GP
  /-- `AFsel`: true when the auxiliary A and F are in use (R32). -/
  afSel : Bool
  /-- `RFsel`: true when the auxiliary byte/word registers are in use (R32). -/
  rfSel : Bool
  /-- IX (R33). -/
  ix : Word
  /-- IY (R33). -/
  iy : Word
  /-- The system stack pointer (R34). -/
  ssp : Word
  /-- The user stack pointer (R34). -/
  usp : Word
  /-- The program counter (R35). -/
  pc : Word
  /-- I (R39). -/
  i : Byte
  /-- R (R40). -/
  r : Byte
  /-- Master Status register (R45). -/
  msr : Word
  /-- Interrupt Status register (R46); bits 9:8 are the interrupt mode. -/
  isr : Word
  /-- Interrupt/Trap Vector Table Pointer (R47). -/
  itvtp : Word
  /-- Stack Limit register (R50). -/
  slr : Word
  /-- I/O Page register (R49). -/
  iop : Byte
  /-- Trap Control register (R48). -/
  tcr : Byte
  /-- Bus Timing and Initialization register (R51). -/
  bti : Byte
  /-- Bus Timing and Control register (R51). -/
  btc : Byte
  /-- Cache Control register (R51). -/
  ccr : Byte
  /-- Local Address register (R51). -/
  lar : Byte
  /-- `ei_shadow` (R42 (b)): maskable interrupts are disabled after EI. -/
  eiShadow : Bool
  /-- `halted` (R42 (c)). -/
  halted : Bool
  /-- The MMU's fault latch (R42 (e)), written by an Access Violation (20_memory.md R67). -/
  mmuLatch : Word
  /-- Physical memory (R69). -/
  mem : Memory
  /-- The physical addresses written since launch, strictly rising (20_memory.md R82). -/
  written : List Nat
  /-- The input transactions so far, oldest first (47_io.md R281). -/
  ioTrace : List IoEvent
  /-- The MODEL's own field: how many unconstrained values have been drawn (log 5). -/
  freeCount : Nat
  /-- The MODEL's own field: the parameters of 00_scope.md R7, which no instruction writes (log 4). -/
  cfg : Platform
  deriving DecidableEq, Repr

/-- All flags clear. -/
def Flags.zero : Flags :=
  { s := false, z := false, b5 := false, h := false, b3 := false, pv := false, n := false, c := false }

/-- The machine right after reset. The spec states no reset value (R55, R370): the general registers are 0 (log 2:
DESIGN CHOICE), and so is the MMU's latch (log 18: DESIGN CHOICE); PC and the control registers have the family's values
(log 1: PRESUMED), memory lists nothing. -/
def State.reset : State where
  bankAF0 := { a := 0, f := Flags.zero }
  bankAF1 := { a := 0, f := Flags.zero }
  bankGP0 := { bc := 0, de := 0, hl := 0 }
  bankGP1 := { bc := 0, de := 0, hl := 0 }
  afSel := false
  rfSel := false
  ix := 0
  iy := 0
  ssp := 0
  usp := 0
  pc := 0
  i := 0
  r := 0
  msr := 0
  isr := 0
  itvtp := 0
  slr := 0
  iop := 0
  tcr := 0
  bti := 0
  btc := 0x30
  ccr := 0x20
  lar := 0
  eiShadow := false
  halted := false
  mmuLatch := 0
  mem := { cells := [] }
  written := []
  ioTrace := []
  freeCount := 0
  cfg := Platform.default

/-- Which of its two cases raised a Division Exception (60_exceptions.md R334). -/
inductive DivisionCause
  /-- The divisor is zero: CASE 2 of R198, R199, R227, R228. -/
  | zeroDivisor
  /-- The quotient is not representable: CASE 3. -/
  | overflow
  deriving DecidableEq, Repr

/-- What an Access Violation reports: `info` of R336. -/
structure Violation where
  space : Space
  access : Access
  addr : Word
  wp : Bool
  valid : Bool
  deriving DecidableEq, Repr

/-- The traps a step can raise (60_exceptions.md R332), each with the state R331 describes. A trap ends the run (R15,
R331, D1; log 7: safe). `ExtendedInstruction` and `SystemCall` are not here: no instruction of the table raises them
(R323, R337). -/
inductive Fault
  /-- DIV, DIVU, DIVW, DIVUW (R334): the flags are written, the destination is not. Safe. -/
  | divisionException (cause : DivisionCause) (s : State)
  /-- Any translated access or fetch but the operand access of LDUD and LDUP (R336): the CPU registers and memory are
  as at the start of the instruction or iteration (R67). Safe. -/
  | accessViolation (v : Violation) (s : State)
  /-- CALL in system mode (R338): the call has completed. Safe. -/
  | systemStackOverflowWarning (s : State)
  /-- A privileged instruction in user mode (R340): nothing has changed. Safe. -/
  | privilegedInstruction (s : State)
  /-- HALT with the Breakpoint-on-Halt bit set (R341): nothing has changed. Safe. -/
  | breakpointOnHalt (s : State)
  /-- Any step begun with the Single-Step bit set (R342); the state at the fault is not specified, so none is kept.
  Safe. -/
  | singleStep
  deriving DecidableEq, Repr

/-- Why a step has no meaning: `refuse` of 00_scope.md R14, outcome (3) of R15. -/
inductive Refusal
  /-- An instruction of the table whose meaning is not written yet; no arm answers it. Safe. -/
  | notModelled (mnemonic : String)
  /-- The fetch: the bytes at PC select no row of the table (30_encoding.md R118, R119). Safe. -/
  | unassignedEncoding
  /-- The fetch: a byte of the instruction was written since launch (20_memory.md R82). Safe. -/
  | writtenCodeFetched
  /-- Any access to a physical address that MemMap does not back (20_memory.md R64, R69). Safe. -/
  | noMemoryThere
  /-- DI and EI with a mask whose bit 7 is 1 (48_cpu_control.md R301, R302). Safe. -/
  | maskBitSeven
  /-- LDCTL with a C that is no control register's address (R309). Safe. -/
  | noControlRegister
  /-- LDCTL write to the Interrupt Status register (R309). Safe. -/
  | interruptStatusWrite
  /-- DAA where no row of its table matches (43_arith8.md R196). Safe. -/
  | daaOutsideTable
  /-- INIW, INDW, INIRW, INDRW from an external page on an 8-bit bus (47_io.md R283, R288). Safe. -/
  | wordInputOnByteBus
  deriving DecidableEq, Repr

/-- The outcome of a step of this machine (00_scope.md R15). -/
abbrev Out := Host.Outcome State Fault Refusal

end Sys2Proof.Machine
end

