-- ==== Sys2Proof/Machine/Flags.lean ====
section
/-! DEFINITION. Every flag computation of the spec: the helpers of 00_scope.md R17, parity, the decimal-adjust table of
43_arith8.md R196, and F as a byte. -/

namespace Sys2Proof.Machine

/-- F as a byte, in the bit order of 10_state.md R36. -/
def Flags.toByte (f : Flags) : Byte :=
  BitVec.ofBool f.s ++ BitVec.ofBool f.z ++ BitVec.ofBool f.b5 ++ BitVec.ofBool f.h
    ++ BitVec.ofBool f.b3 ++ BitVec.ofBool f.pv ++ BitVec.ofBool f.n ++ BitVec.ofBool f.c

/-- The flags of a byte (R36). -/
def Flags.ofByte (b : Byte) : Flags :=
  { s := b.getLsbD 7, z := b.getLsbD 6, b5 := b.getLsbD 5, h := b.getLsbD 4,
    b3 := b.getLsbD 3, pv := b.getLsbD 2, n := b.getLsbD 1, c := b.getLsbD 0 }

/-- A result and the six values a flag helper gives (R17). -/
structure Alu (w : Nat) where
  res : BitVec w
  s : Bool
  z : Bool
  h : Bool
  v : Bool
  n : Bool
  c : Bool
  deriving DecidableEq, Repr

/-- `add8` of R17. -/
def add8 (a b : Byte) (cin : Bool) : Alu 8 :=
  let sum := a.toNat + b.toNat + cin.toNat
  let res := BitVec.ofNat 8 sum
  { res := res
    s := res.getLsbD 7
    z := decide (res = 0)
    h := decide (15 < a.toNat % 16 + b.toNat % 16 + cin.toNat)
    v := (a.getLsbD 7 == b.getLsbD 7) && (res.getLsbD 7 != a.getLsbD 7)
    n := false
    c := decide (255 < sum) }

/-- `sub8` of R17. -/
def sub8 (a b : Byte) (bin : Bool) : Alu 8 :=
  let diff : Int := a.toNat - b.toNat - bin.toNat
  let res := BitVec.ofInt 8 diff
  { res := res
    s := res.getLsbD 7
    z := decide (res = 0)
    h := decide ((a.toNat % 16 : Nat) - (b.toNat % 16 : Nat) - (bin.toNat : Int) < 0)
    v := (a.getLsbD 7 != b.getLsbD 7) && (res.getLsbD 7 == b.getLsbD 7)
    n := true
    c := decide (diff < 0) }

/-- `add16` of R17. -/
def add16 (a b : Word) (cin : Bool) : Alu 16 :=
  let sum := a.toNat + b.toNat + cin.toNat
  let res := BitVec.ofNat 16 sum
  { res := res
    s := res.getLsbD 15
    z := decide (res = 0)
    h := decide (4095 < a.toNat % 4096 + b.toNat % 4096 + cin.toNat)
    v := (a.getLsbD 15 == b.getLsbD 15) && (res.getLsbD 15 != a.getLsbD 15)
    n := false
    c := decide (65535 < sum) }

/-- `sub16` of R17. -/
def sub16 (a b : Word) (bin : Bool) : Alu 16 :=
  let diff : Int := a.toNat - b.toNat - bin.toNat
  let res := BitVec.ofInt 16 diff
  { res := res
    s := res.getLsbD 15
    z := decide (res = 0)
    h := decide ((a.toNat % 4096 : Nat) - (b.toNat % 4096 : Nat) - (bin.toNat : Int) < 0)
    v := (a.getLsbD 15 != b.getLsbD 15) && (res.getLsbD 15 == b.getLsbD 15)
    n := true
    c := decide (diff < 0) }

/-- All six flags of a helper written to F (R17); bits 5 and 3 are drawn where F is written (R18). -/
def Alu.all {w : Nat} (x : Alu w) (f : Flags) : Flags :=
  { f with s := x.s, z := x.z, h := x.h, pv := x.v, n := x.n, c := x.c }

/-- `parity_even` of R13. -/
def parityEven (b : Byte) : Bool :=
  !(b.getLsbD 0 ^^ b.getLsbD 1 ^^ b.getLsbD 2 ^^ b.getLsbD 3
    ^^ b.getLsbD 4 ^^ b.getLsbD 5 ^^ b.getLsbD 6 ^^ b.getLsbD 7)

/-- One row of the table of DAA (43_arith8.md R196): the values before, and what they select. -/
structure DaaRow where
  n : Bool
  c : Bool
  upperMin : Nat
  upperMax : Nat
  h : Bool
  lowerMin : Nat
  lowerMax : Nat
  added : Byte
  cAfter : Bool
  hAfter : Bool
  deriving DecidableEq, Repr

/-- The table of DAA (R196), row by row. -/
def daaTable : List DaaRow :=
  [ ⟨false, false, 0x0, 0x9, false, 0x0, 0x9, 0x00, false, false⟩,
    ⟨false, false, 0x0, 0x8, false, 0xA, 0xF, 0x06, false, true⟩,
    ⟨false, false, 0x0, 0x9, true, 0x0, 0x3, 0x06, false, false⟩,
    ⟨false, false, 0xA, 0xF, false, 0x0, 0x9, 0x60, true, false⟩,
    ⟨false, false, 0x9, 0xF, false, 0xA, 0xF, 0x66, true, true⟩,
    ⟨false, false, 0xA, 0xF, true, 0x0, 0x3, 0x66, true, false⟩,
    ⟨false, true, 0x0, 0x2, false, 0x0, 0x9, 0x60, true, false⟩,
    ⟨false, true, 0x0, 0x2, false, 0xA, 0xF, 0x66, true, true⟩,
    ⟨false, true, 0x0, 0x3, true, 0x0, 0x3, 0x66, true, false⟩,
    ⟨true, false, 0x0, 0x9, false, 0x0, 0x9, 0x00, false, false⟩,
    ⟨true, false, 0x0, 0x8, true, 0x6, 0xF, 0xFA, false, true⟩,
    ⟨true, true, 0x7, 0xF, false, 0x0, 0x9, 0xA0, true, false⟩,
    ⟨true, true, 0x6, 0xF, true, 0x6, 0xF, 0x9A, true, true⟩ ]

/-- A row matches the flags and the digits of A before the instruction (R196). -/
def DaaRow.hits (row : DaaRow) (f : Flags) (a : Byte) : Bool :=
  let upper := a.toNat / 16
  let lower := a.toNat % 16
  (row.n == f.n) && (row.c == f.c) && (row.h == f.h)
    && decide (row.upperMin ≤ upper) && decide (upper ≤ row.upperMax)
    && decide (row.lowerMin ≤ lower) && decide (lower ≤ row.lowerMax)

/-- The row of the table that matches, if one does (R196). -/
def daaRow (f : Flags) (a : Byte) : Option DaaRow := daaTable.find? fun row => row.hits f a

/-- `cond(ccc)` of 30_encoding.md R110. -/
def condHolds (cc : CC) (f : Flags) : Bool :=
  match cc with
  | .nz => !f.z
  | .z => f.z
  | .nc => !f.c
  | .c => f.c
  | .po => !f.pv
  | .pe => f.pv
  | .p => !f.s
  | .m => f.s

/-- `cond(0 ++ zz)` of 46_control.md R265. -/
def jrHolds (jcc : JCC) (f : Flags) : Bool :=
  match jcc with
  | .nz => !f.z
  | .z => f.z
  | .nc => !f.c
  | .c => f.c

end Sys2Proof.Machine
end

