-- ==== Sys2Proof/WellFormed.lean ====
section
/-! DEFINITION. Which terms of `Instr` are instructions of the table: the constraints of its rows that the types of
the operands do not already keep. -/

namespace Sys2Proof

/-- `R*` of the rows LD R*,RX and LD RX,R*: "Only registers A, B, C, D and E can be accessed" (40_load8.md R131). -/
def R8.starOk : R8 → Bool
  | .h => false
  | .l => false
  | .b => true
  | .c => true
  | .d => true
  | .e => true
  | .a => true

/-- "mask(7) must be zero" (48_cpu_control.md R301, R302). -/
def maskOk (mask : Byte) : Bool := !mask.getLsbD 7

/-- The constraints of the table's rows (30_encoding.md R92). -/
def Instr.wellFormed : Instr → Bool
  | .ldReg _ _ => true
  | .ldGRx _ g _ => g.starOk
  | .ldRxRx _ _ _ => true
  | .ldRxG _ _ g => g.starOk
  | .ldRHl _ => true
  | .ldRSx _ _ _ => true
  | .ldHlR _ => true
  | .ldSxR _ _ _ => true
  | .ldRN _ _ => true
  | .ldRxN _ _ _ => true
  | .ldHlN _ => true
  | .ldDaN _ _ => true
  | .ldXN _ _ _ => true
  | .ldSxN _ _ _ => true
  | .ldRaN _ _ => true
  | .ldSrN _ _ => true
  | .ldBxN _ _ => true
  | .ldAIr _ => true
  | .ldADa _ => true
  | .ldAX _ _ => true
  | .ldARa _ => true
  | .ldASr _ => true
  | .ldABx _ => true
  | .ldIrA _ => true
  | .ldDaA _ => true
  | .ldXA _ _ => true
  | .ldRaA _ => true
  | .ldSrA _ => true
  | .ldBxA _ => true
  | .exAR _ => true
  | .exARx _ _ => true
  | .exAHl => true
  | .exADa _ => true
  | .exAX _ _ => true
  | .exASx _ _ => true
  | .exARa _ => true
  | .exASr _ => true
  | .exABx _ => true
  | .exHL => true
  | .ldudAHl => true
  | .ldudASx _ _ => true
  | .ldudHlA => true
  | .ldudSxA _ _ => true
  | .ldupAHl => true
  | .ldupASx _ _ => true
  | .ldupHlA => true
  | .ldupSxA _ _ => true
  | .exDeHl => true
  | .exXyHl _ => true
  | .exAfAf => true
  | .exx => true
  | .exSpHl => true
  | .exSpXy _ => true
  | .ldaHlX _ _ => true
  | .ldaXyX _ _ _ => true
  | .ldaHlRa _ => true
  | .ldaXyRa _ _ => true
  | .ldaHlSr _ => true
  | .ldaXySr _ _ => true
  | .ldaHlBx _ => true
  | .ldaXyBx _ _ => true
  | .ldwRrN _ _ => true
  | .ldwXyN _ _ => true
  | .ldwHlN _ => true
  | .ldwDaN _ _ => true
  | .ldwRaN _ _ => true
  | .ldi => true
  | .ldd => true
  | .ldir => true
  | .lddr => true
  | .cpi => true
  | .cpd => true
  | .cpir => true
  | .cpdr => true
  | .adcAR _ => true
  | .adcARx _ _ => true
  | .adcAN _ => true
  | .adcAHl => true
  | .adcADa _ => true
  | .adcAX _ _ => true
  | .adcASx _ _ => true
  | .adcARa _ => true
  | .adcASr _ => true
  | .adcABx _ => true
  | .addAR _ => true
  | .addARx _ _ => true
  | .addAN _ => true
  | .addAHl => true
  | .addADa _ => true
  | .addAX _ _ => true
  | .addASx _ _ => true
  | .addARa _ => true
  | .addASr _ => true
  | .addABx _ => true
  | .andAR _ => true
  | .andARx _ _ => true
  | .andAN _ => true
  | .andAHl => true
  | .andADa _ => true
  | .andAX _ _ => true
  | .andASx _ _ => true
  | .andARa _ => true
  | .andASr _ => true
  | .andABx _ => true
  | .cpAR _ => true
  | .cpARx _ _ => true
  | .cpAN _ => true
  | .cpAHl => true
  | .cpADa _ => true
  | .cpAX _ _ => true
  | .cpASx _ _ => true
  | .cpARa _ => true
  | .cpASr _ => true
  | .cpABx _ => true
  | .cpl => true
  | .daa => true
  | .decR _ => true
  | .decRx _ _ => true
  | .decHl => true
  | .decDa _ => true
  | .decX _ _ => true
  | .decSx _ _ => true
  | .decRa _ => true
  | .decSr _ => true
  | .decBx _ => true
  | .divR _ => true
  | .divRx _ _ => true
  | .divN _ => true
  | .divHl => true
  | .divDa _ => true
  | .divX _ _ => true
  | .divSx _ _ => true
  | .divRa _ => true
  | .divSr _ => true
  | .divBx _ => true
  | .divuR _ => true
  | .divuRx _ _ => true
  | .divuN _ => true
  | .divuHl => true
  | .divuDa _ => true
  | .divuX _ _ => true
  | .divuSx _ _ => true
  | .divuRa _ => true
  | .divuSr _ => true
  | .divuBx _ => true
  | .extsA => true
  | .incR _ => true
  | .incRx _ _ => true
  | .incHl => true
  | .incDa _ => true
  | .incX _ _ => true
  | .incSx _ _ => true
  | .incRa _ => true
  | .incSr _ => true
  | .incBx _ => true
  | .adcHlRr _ => true
  | .adcXyRr _ _ => true
  | .addHlRr _ => true
  | .addXyRr _ _ => true
  | .addHlA => true
  | .addXyA _ => true
  | .addwRr _ => true
  | .addwXy _ => true
  | .addwN _ => true
  | .addwDa _ => true
  | .addwX _ _ => true
  | .addwRa _ => true
  | .addwHl => true
  | .cpwRr _ => true
  | .cpwXy _ => true
  | .cpwN _ => true
  | .cpwDa _ => true
  | .cpwX _ _ => true
  | .cpwRa _ => true
  | .cpwHl => true
  | .decwRr _ => true
  | .decwXy _ => true
  | .decwHl => true
  | .decwDa _ => true
  | .decwX _ _ => true
  | .decwRa _ => true
  | .divwRr _ => true
  | .divwXy _ => true
  | .divwN _ => true
  | .divwDa _ => true
  | .divwX _ _ => true
  | .divwRa _ => true
  | .divwHl => true
  | .divuwRr _ => true
  | .divuwXy _ => true
  | .divuwN _ => true
  | .divuwDa _ => true
  | .divuwX _ _ => true
  | .divuwRa _ => true
  | .divuwHl => true
  | .extsHl => true
  | .incwRr _ => true
  | .incwXy _ => true
  | .incwHl => true
  | .incwDa _ => true
  | .incwX _ _ => true
  | .incwRa _ => true
  | .bitR _ _ => true
  | .bitHl _ => true
  | .bitSx _ _ _ => true
  | .callCcHl _ => true
  | .callHl => true
  | .callCc _ _ => true
  | .callDa _ => true
  | .callCcRa _ _ => true
  | .callRa _ => true
  | .ccf => true
  | .djnz _ => true
  | .jpCcHl _ => true
  | .jpHl => true
  | .jpXy _ => true
  | .jpCc _ _ => true
  | .jpDa _ => true
  | .jpCcRa _ _ => true
  | .jpRa _ => true
  | .jrCc _ _ => true
  | .jr _ => true
  | .jaf _ => true
  | .jar _ => true
  | .inR _ => true
  | .inRx _ _ => true
  | .inDa _ => true
  | .inX _ _ => true
  | .inRa _ => true
  | .inSr _ => true
  | .inBx _ => true
  | .inAN _ => true
  | .inw => true
  | .ini => true
  | .iniw => true
  | .ind => true
  | .indw => true
  | .inir => true
  | .inirw => true
  | .indr => true
  | .indrw => true
  | .di => true
  | .diMask mask => maskOk mask
  | .ei => true
  | .eiMask mask => maskOk mask
  | .halt => true
  | .im0 => true
  | .im1 => true
  | .im2 => true
  | .im3 => true
  | .ldIA => true
  | .ldRfA => true
  | .ldAI => true
  | .ldARf => true
  | .ldctlHlC => true
  | .ldctlXyC _ => true
  | .ldctlCHl => true
  | .ldctlCXy _ => true
  | .ldctlHlUsp => true
  | .ldctlXyUsp _ => true
  | .ldctlUspHl => true
  | .ldctlUspXy _ => true

end Sys2Proof
end

