-- ==== Sys2Proof/Decode.lean ====
section
/-! DEFINITION. Decoding, total on any list of bytes (30_encoding.md R90 to R101, R111 to R119), and the encoder, both
written from the `encoding` column of spec/opcode_table.json. -/

namespace Sys2Proof

/-! ### Bit fields and byte order -/

/-- The field of `w` bits of `op` whose lowest bit is bit `lo`. -/
def bits (op : Byte) (lo w : Nat) : Nat := (op.toNat / 2 ^ lo) % 2 ^ w

/-- The low-order byte of a word. -/
def loByte (w : Word) : Byte := w.setWidth 8

/-- The high-order byte of a word. -/
def hiByte (w : Word) : Byte := (w >>> 8).setWidth 8

/-- The word with the given high-order and low-order bytes (`a ++ b` of 00_scope.md R13). -/
def joinBytes (hi lo : Byte) : Word := hi ++ lo

/-- Operand byte `k`. -/
def at8 (bs : List Byte) (k : Nat) : Byte := bs.getD k 0

/-- The two-byte operand at `k`, low byte first (20_memory.md R70). -/
def at16 (bs : List Byte) (k : Nat) : Word := joinBytes (bs.getD (k + 1) 0) (bs.getD k 0)

/-! ### Encoding fields (30_encoding.md R92) -/

/-- `rrr` and `sss`; 110 names no register (R96). -/
def r8? : Nat → Option R8
  | 0 => some .b
  | 1 => some .c
  | 2 => some .d
  | 3 => some .e
  | 4 => some .h
  | 5 => some .l
  | 7 => some .a
  | _ => none

/-- `ggg`: A, B, C, D, E only (R97). -/
def star? : Nat → Option R8
  | 0 => some .b
  | 1 => some .c
  | 2 => some .d
  | 3 => some .e
  | 7 => some .a
  | _ => none

/-- `xx`; 00 never. -/
def xx? : Nat → Option XX
  | 1 => some .ix
  | 2 => some .iy
  | 3 => some .hl
  | _ => none

/-- `jj`; 00 never. -/
def bx? : Nat → Option BX
  | 1 => some .hlIx
  | 2 => some .hlIy
  | 3 => some .ixIy
  | _ => none

/-- `h` and `l`. -/
def halfOf : Nat → Half
  | 0 => .hi
  | _ => .lo

/-- `v`. -/
def xyOf : Nat → XY
  | 0 => .ix
  | _ => .iy

/-- `ww`. -/
def rrOf : Nat → RR
  | 0 => .bc
  | 1 => .de
  | 2 => .hl
  | _ => .sp

/-- `ww` where code 10 names the index register that the instruction writes (R99). -/
def rrxOf : Nat → RRX
  | 0 => .bc
  | 1 => .de
  | 2 => .self
  | _ => .sp

/-- `e`. -/
def bdOf : Nat → BD
  | 0 => .bc
  | _ => .de

/-- `ccc` (R110). -/
def ccOf : Nat → CC
  | 0 => .nz
  | 1 => .z
  | 2 => .nc
  | 3 => .c
  | 4 => .po
  | 5 => .pe
  | 6 => .p
  | _ => .m

/-- `zz` (R110). -/
def jccOf : Nat → JCC
  | 0 => .nz
  | 1 => .z
  | 2 => .nc
  | _ => .c

/-- The code of an 8-bit register (Table 5-12, R96). -/
def R8.code : R8 → Nat
  | .b => 0
  | .c => 1
  | .d => 2
  | .e => 3
  | .h => 4
  | .l => 5
  | .a => 7

/-- The code of a half: 0 high, 1 low (R97). -/
def Half.code : Half → Nat
  | .hi => 0
  | .lo => 1

/-- The one-bit code of an index register inside an opcode byte: `v` of R92. -/
def XY.code : XY → Nat
  | .ix => 0
  | .iy => 1

/-- The first byte that names an index register: DDh or FDh (R93). -/
def XY.lead : XY → Byte
  | .ix => 0xDD
  | .iy => 0xFD

/-- The code of an indexed-mode base. -/
def XX.code : XX → Nat
  | .ix => 1
  | .iy => 2
  | .hl => 3

/-- The code of a base-index pair. -/
def BX.code : BX → Nat
  | .hlIx => 1
  | .hlIy => 2
  | .ixIy => 3

/-- The code of a 16-bit register. -/
def RR.code : RR → Nat
  | .bc => 0
  | .de => 1
  | .hl => 2
  | .sp => 3

/-- The code of a 16-bit register where 10 is the destination itself. -/
def RRX.code : RRX → Nat
  | .bc => 0
  | .de => 1
  | .self => 2
  | .sp => 3

/-- The code of BC or DE. -/
def BD.code : BD → Nat
  | .bc => 0
  | .de => 1

/-- The code of a condition (R110). -/
def CC.code : CC → Nat
  | .nz => 0
  | .z => 1
  | .nc => 2
  | .c => 3
  | .po => 4
  | .pe => 5
  | .p => 6
  | .m => 7

/-- The code of a Jump Relative condition (R110). -/
def JCC.code : JCC → Nat
  | .nz => 0
  | .z => 1
  | .nc => 2
  | .c => 3

/-! ### The rows of the table, page by page -/

/-- What an opcode byte settles: how many operand bytes follow, and the instruction as a function of them. -/
abbrev Shape := Nat × (List Byte → Instr)

/-- A row whose opcode byte has the fixed bits `val` under `mask`; `k` is none where a field of it has a value the row
excludes. -/
def pat (op mask val : Byte) (k : Option Shape) : Option Shape := if op &&& mask = val then k else none

/-- A row printed with one of the literal bytes DDh and FDh, not with `11y11101` (R93, role 2). -/
def only (q q' : XY) (k : Option Shape) : Option Shape := if q = q' then k else none

/-- The first row that answers. No two rows answer (R92). -/
def firstOf : List (Option Shape) → Option Shape
  | [] => none
  | some x :: _ => some x
  | none :: t => firstOf t

/-- The rows of page 0: no index byte, no escape (R111). -/
def rows0 (op : Byte) : List (Option Shape) :=
  [ pat op 0xC0 0x40 (do let r ← r8? (bits op 3 3); let r2 ← r8? (bits op 0 3); some (0, fun _ => .ldReg r r2)),
    pat op 0xC7 0x46 (do let r ← r8? (bits op 3 3); some (0, fun _ => .ldRHl r)),
    pat op 0xF8 0x70 (do let r ← r8? (bits op 0 3); some (0, fun _ => .ldHlR r)),
    pat op 0xC7 0x06 (do let r ← r8? (bits op 3 3); some (1, fun bs => .ldRN r (at8 bs 0))),
    pat op 0xFF 0x36 (some (1, fun bs => .ldHlN (at8 bs 0))),
    pat op 0xEF 0x0A (some (0, fun _ => .ldAIr (bdOf (bits op 4 1)))),
    pat op 0xFF 0x3A (some (2, fun bs => .ldADa (at16 bs 0))),
    pat op 0xEF 0x02 (some (0, fun _ => .ldIrA (bdOf (bits op 4 1)))),
    pat op 0xFF 0x32 (some (2, fun bs => .ldDaA (at16 bs 0))),
    pat op 0xFF 0xEB (some (0, fun _ => .exDeHl)),
    pat op 0xFF 0x08 (some (0, fun _ => .exAfAf)),
    pat op 0xFF 0xD9 (some (0, fun _ => .exx)),
    pat op 0xFF 0xE3 (some (0, fun _ => .exSpHl)),
    pat op 0xCF 0x01 (some (2, fun bs => .ldwRrN (rrOf (bits op 4 2)) (at16 bs 0))),
    pat op 0xF8 0x88 (do let r ← r8? (bits op 0 3); some (0, fun _ => .adcAR r)),
    pat op 0xFF 0xCE (some (1, fun bs => .adcAN (at8 bs 0))),
    pat op 0xFF 0x8E (some (0, fun _ => .adcAHl)),
    pat op 0xF8 0x80 (do let r ← r8? (bits op 0 3); some (0, fun _ => .addAR r)),
    pat op 0xFF 0xC6 (some (1, fun bs => .addAN (at8 bs 0))),
    pat op 0xFF 0x86 (some (0, fun _ => .addAHl)),
    pat op 0xF8 0xA0 (do let r ← r8? (bits op 0 3); some (0, fun _ => .andAR r)),
    pat op 0xFF 0xE6 (some (1, fun bs => .andAN (at8 bs 0))),
    pat op 0xFF 0xA6 (some (0, fun _ => .andAHl)),
    pat op 0xF8 0xB8 (do let r ← r8? (bits op 0 3); some (0, fun _ => .cpAR r)),
    pat op 0xFF 0xFE (some (1, fun bs => .cpAN (at8 bs 0))),
    pat op 0xFF 0xBE (some (0, fun _ => .cpAHl)),
    pat op 0xFF 0x2F (some (0, fun _ => .cpl)),
    pat op 0xFF 0x27 (some (0, fun _ => .daa)),
    pat op 0xC7 0x05 (do let r ← r8? (bits op 3 3); some (0, fun _ => .decR r)),
    pat op 0xFF 0x35 (some (0, fun _ => .decHl)),
    pat op 0xC7 0x04 (do let r ← r8? (bits op 3 3); some (0, fun _ => .incR r)),
    pat op 0xFF 0x34 (some (0, fun _ => .incHl)),
    pat op 0xCF 0x09 (some (0, fun _ => .addHlRr (rrOf (bits op 4 2)))),
    pat op 0xCF 0x0B (some (0, fun _ => .decwRr (rrOf (bits op 4 2)))),
    pat op 0xCF 0x03 (some (0, fun _ => .incwRr (rrOf (bits op 4 2)))),
    pat op 0xC7 0xC4 (some (2, fun bs => .callCc (ccOf (bits op 3 3)) (at16 bs 0))),
    pat op 0xFF 0xCD (some (2, fun bs => .callDa (at16 bs 0))),
    pat op 0xFF 0x3F (some (0, fun _ => .ccf)),
    pat op 0xFF 0x10 (some (1, fun bs => .djnz (at8 bs 0))),
    pat op 0xFF 0xE9 (some (0, fun _ => .jpHl)),
    pat op 0xC7 0xC2 (some (2, fun bs => .jpCc (ccOf (bits op 3 3)) (at16 bs 0))),
    pat op 0xFF 0xC3 (some (2, fun bs => .jpDa (at16 bs 0))),
    pat op 0xE7 0x20 (some (1, fun bs => .jrCc (jccOf (bits op 3 2)) (at8 bs 0))),
    pat op 0xFF 0x18 (some (1, fun bs => .jr (at8 bs 0))),
    pat op 0xFF 0xDB (some (1, fun bs => .inAN (at8 bs 0))),
    pat op 0xFF 0xF3 (some (0, fun _ => .di)),
    pat op 0xFF 0xFB (some (0, fun _ => .ei)),
    pat op 0xFF 0x76 (some (0, fun _ => .halt)) ]

/-- The rows of page ED (R112). -/
def rowsED (op : Byte) : List (Option Shape) :=
  [ pat op 0xE7 0x23 (do let base ← xx? (bits op 3 2); some (2, fun bs => .ldXA base (at16 bs 0))),
    pat op 0xFF 0x23 (some (2, fun bs => .ldRaA (at16 bs 0))),
    pat op 0xFF 0x03 (some (2, fun bs => .ldSrA (at16 bs 0))),
    pat op 0xE7 0x03 (do let pair ← bx? (bits op 3 2); some (0, fun _ => .ldBxA pair)),
    pat op 0xC7 0x07 (do let r ← r8? (bits op 3 3); some (0, fun _ => .exAR r)),
    pat op 0xFF 0x37 (some (0, fun _ => .exAHl)),
    pat op 0xFF 0xEF (some (0, fun _ => .exHL)),
    pat op 0xFF 0x86 (some (0, fun _ => .ldudAHl)),
    pat op 0xFF 0x8E (some (0, fun _ => .ldudHlA)),
    pat op 0xFF 0x96 (some (0, fun _ => .ldupAHl)),
    pat op 0xFF 0x9E (some (0, fun _ => .ldupHlA)),
    pat op 0xE7 0x22 (do let base ← xx? (bits op 3 2); some (2, fun bs => .ldaHlX base (at16 bs 0))),
    pat op 0xFF 0x22 (some (2, fun bs => .ldaHlRa (at16 bs 0))),
    pat op 0xFF 0x02 (some (2, fun bs => .ldaHlSr (at16 bs 0))),
    pat op 0xE7 0x02 (do let pair ← bx? (bits op 3 2); some (0, fun _ => .ldaHlBx pair)),
    pat op 0xFF 0xA0 (some (0, fun _ => .ldi)),
    pat op 0xFF 0xA8 (some (0, fun _ => .ldd)),
    pat op 0xFF 0xB0 (some (0, fun _ => .ldir)),
    pat op 0xFF 0xB8 (some (0, fun _ => .lddr)),
    pat op 0xFF 0xA1 (some (0, fun _ => .cpi)),
    pat op 0xFF 0xA9 (some (0, fun _ => .cpd)),
    pat op 0xFF 0xB1 (some (0, fun _ => .cpir)),
    pat op 0xFF 0xB9 (some (0, fun _ => .cpdr)),
    pat op 0xC7 0xC4 (do let r ← r8? (bits op 3 3); some (0, fun _ => .divR r)),
    pat op 0xFF 0xF4 (some (0, fun _ => .divHl)),
    pat op 0xC7 0xC5 (do let r ← r8? (bits op 3 3); some (0, fun _ => .divuR r)),
    pat op 0xFF 0xF5 (some (0, fun _ => .divuHl)),
    pat op 0xFF 0x64 (some (0, fun _ => .extsA)),
    pat op 0xCF 0x4A (some (0, fun _ => .adcHlRr (rrOf (bits op 4 2)))),
    pat op 0xFF 0x6D (some (0, fun _ => .addHlA)),
    pat op 0xCF 0xC6 (some (0, fun _ => .addwRr (rrOf (bits op 4 2)))),
    pat op 0xCF 0xC7 (some (0, fun _ => .cpwRr (rrOf (bits op 4 2)))),
    pat op 0xCF 0xCA (some (0, fun _ => .divwRr (rrOf (bits op 4 2)))),
    pat op 0xCF 0xCB (some (0, fun _ => .divuwRr (rrOf (bits op 4 2)))),
    pat op 0xFF 0x6C (some (0, fun _ => .extsHl)),
    pat op 0xC7 0x40 (do let r ← r8? (bits op 3 3); some (0, fun _ => .inR r)),
    pat op 0xFF 0xB7 (some (0, fun _ => .inw)),
    pat op 0xFF 0xA2 (some (0, fun _ => .ini)),
    pat op 0xFF 0x82 (some (0, fun _ => .iniw)),
    pat op 0xFF 0xAA (some (0, fun _ => .ind)),
    pat op 0xFF 0x8A (some (0, fun _ => .indw)),
    pat op 0xFF 0xB2 (some (0, fun _ => .inir)),
    pat op 0xFF 0x92 (some (0, fun _ => .inirw)),
    pat op 0xFF 0xBA (some (0, fun _ => .indr)),
    pat op 0xFF 0x9A (some (0, fun _ => .indrw)),
    pat op 0xFF 0x77 (some (1, fun bs => .diMask (at8 bs 0))),
    pat op 0xFF 0x7F (some (1, fun bs => .eiMask (at8 bs 0))),
    pat op 0xFF 0x46 (some (0, fun _ => .im0)),
    pat op 0xFF 0x56 (some (0, fun _ => .im1)),
    pat op 0xFF 0x5E (some (0, fun _ => .im2)),
    pat op 0xFF 0x4E (some (0, fun _ => .im3)),
    pat op 0xFF 0x47 (some (0, fun _ => .ldIA)),
    pat op 0xFF 0x4F (some (0, fun _ => .ldRfA)),
    pat op 0xFF 0x57 (some (0, fun _ => .ldAI)),
    pat op 0xFF 0x5F (some (0, fun _ => .ldARf)),
    pat op 0xFF 0x66 (some (0, fun _ => .ldctlHlC)),
    pat op 0xFF 0x6E (some (0, fun _ => .ldctlCHl)),
    pat op 0xFF 0x87 (some (0, fun _ => .ldctlHlUsp)),
    pat op 0xFF 0x8F (some (0, fun _ => .ldctlUspHl)) ]

/-- The rows of page CB without an index byte (R113). -/
def rowsCB (op : Byte) : List (Option Shape) :=
  [ pat op 0xC0 0x40 (do let r ← r8? (bits op 0 3); some (0, fun _ => .bitR (BitVec.ofNat 3 (bits op 3 3)) r)),
    pat op 0xC7 0x46 (some (0, fun _ => .bitHl (BitVec.ofNat 3 (bits op 3 3)))) ]

/-- The rows of pages DD and FD (R114); `q` is the index register of the first byte, DD for IX and FD for IY (R93). -/
def rowsXY (q : XY) (op : Byte) : List (Option Shape) :=
  [ pat op 0xC6 0x44 (do let g ← star? (bits op 3 3); some (0, fun _ => .ldGRx q g (halfOf (bits op 0 1)))),
    pat op 0xF6 0x64 (some (0, fun _ => .ldRxRx q (halfOf (bits op 3 1)) (halfOf (bits op 0 1)))),
    pat op 0xF0 0x60 (do let g ← star? (bits op 0 3); some (0, fun _ => .ldRxG q (halfOf (bits op 3 1)) g)),
    pat op 0xC7 0x46 (do let r ← r8? (bits op 3 3); some (1, fun bs => .ldRSx q r (at8 bs 0))),
    pat op 0xF8 0x70 (do let r ← r8? (bits op 0 3); some (1, fun bs => .ldSxR q r (at8 bs 0))),
    pat op 0xF7 0x26 (some (1, fun bs => .ldRxN q (halfOf (bits op 3 1)) (at8 bs 0))),
    only q .ix (pat op 0xFF 0x3E (some (3, fun bs => .ldDaN (at16 bs 0) (at8 bs 2)))),
    only q .iy (pat op 0xE7 0x06 (do let base ← xx? (bits op 3 2); some (3, fun bs => .ldXN base (at16 bs 0) (at8 bs 2)))),
    pat op 0xFF 0x36 (some (2, fun bs => .ldSxN q (at8 bs 0) (at8 bs 1))),
    only q .iy (pat op 0xFF 0x06 (some (3, fun bs => .ldRaN (at16 bs 0) (at8 bs 2)))),
    only q .ix (pat op 0xFF 0x06 (some (3, fun bs => .ldSrN (at16 bs 0) (at8 bs 2)))),
    only q .ix (pat op 0xE7 0x06 (do let pair ← bx? (bits op 3 2); some (1, fun bs => .ldBxN pair (at8 bs 0)))),
    only q .iy (pat op 0xFC 0x78 (do let base ← xx? (bits op 0 2); some (2, fun bs => .ldAX base (at16 bs 0)))),
    only q .iy (pat op 0xFF 0x78 (some (2, fun bs => .ldARa (at16 bs 0)))),
    only q .ix (pat op 0xFF 0x78 (some (2, fun bs => .ldASr (at16 bs 0)))),
    only q .ix (pat op 0xFC 0x78 (do let pair ← bx? (bits op 0 2); some (0, fun _ => .ldABx pair))),
    pat op 0xFF 0xEB (some (0, fun _ => .exXyHl q)),
    pat op 0xFF 0xE3 (some (0, fun _ => .exSpXy q)),
    pat op 0xFF 0x21 (some (2, fun bs => .ldwXyN q (at16 bs 0))),
    only q .ix (pat op 0xFF 0x01 (some (2, fun bs => .ldwHlN (at16 bs 0)))),
    only q .ix (pat op 0xFF 0x11 (some (4, fun bs => .ldwDaN (at16 bs 0) (at16 bs 2)))),
    only q .ix (pat op 0xFF 0x31 (some (4, fun bs => .ldwRaN (at16 bs 0) (at16 bs 2)))),
    pat op 0xFE 0x8C (some (0, fun _ => .adcARx q (halfOf (bits op 0 1)))),
    only q .ix (pat op 0xFF 0x8F (some (2, fun bs => .adcADa (at16 bs 0)))),
    only q .iy (pat op 0xFC 0x88 (do let base ← xx? (bits op 0 2); some (2, fun bs => .adcAX base (at16 bs 0)))),
    pat op 0xFF 0x8E (some (1, fun bs => .adcASx q (at8 bs 0))),
    only q .iy (pat op 0xFF 0x88 (some (2, fun bs => .adcARa (at16 bs 0)))),
    only q .ix (pat op 0xFF 0x88 (some (2, fun bs => .adcASr (at16 bs 0)))),
    only q .ix (pat op 0xFC 0x88 (do let pair ← bx? (bits op 0 2); some (0, fun _ => .adcABx pair))),
    pat op 0xFE 0x84 (some (0, fun _ => .addARx q (halfOf (bits op 0 1)))),
    only q .ix (pat op 0xFF 0x87 (some (2, fun bs => .addADa (at16 bs 0)))),
    only q .iy (pat op 0xFC 0x80 (do let base ← xx? (bits op 0 2); some (2, fun bs => .addAX base (at16 bs 0)))),
    pat op 0xFF 0x86 (some (1, fun bs => .addASx q (at8 bs 0))),
    only q .iy (pat op 0xFF 0x80 (some (2, fun bs => .addARa (at16 bs 0)))),
    only q .ix (pat op 0xFF 0x80 (some (2, fun bs => .addASr (at16 bs 0)))),
    only q .ix (pat op 0xFC 0x80 (do let pair ← bx? (bits op 0 2); some (0, fun _ => .addABx pair))),
    pat op 0xFE 0xA4 (some (0, fun _ => .andARx q (halfOf (bits op 0 1)))),
    only q .ix (pat op 0xFF 0xA7 (some (2, fun bs => .andADa (at16 bs 0)))),
    only q .iy (pat op 0xFC 0xA0 (do let base ← xx? (bits op 0 2); some (2, fun bs => .andAX base (at16 bs 0)))),
    pat op 0xFF 0xA6 (some (1, fun bs => .andASx q (at8 bs 0))),
    only q .iy (pat op 0xFF 0xA0 (some (2, fun bs => .andARa (at16 bs 0)))),
    only q .ix (pat op 0xFF 0xA0 (some (2, fun bs => .andASr (at16 bs 0)))),
    only q .ix (pat op 0xFC 0xA0 (do let pair ← bx? (bits op 0 2); some (0, fun _ => .andABx pair))),
    pat op 0xFE 0xBC (some (0, fun _ => .cpARx q (halfOf (bits op 0 1)))),
    only q .ix (pat op 0xFF 0xBF (some (2, fun bs => .cpADa (at16 bs 0)))),
    only q .iy (pat op 0xFC 0xB8 (do let base ← xx? (bits op 0 2); some (2, fun bs => .cpAX base (at16 bs 0)))),
    pat op 0xFF 0xBE (some (1, fun bs => .cpASx q (at8 bs 0))),
    only q .iy (pat op 0xFF 0xB8 (some (2, fun bs => .cpARa (at16 bs 0)))),
    only q .ix (pat op 0xFF 0xB8 (some (2, fun bs => .cpASr (at16 bs 0)))),
    only q .ix (pat op 0xFC 0xB8 (do let pair ← bx? (bits op 0 2); some (0, fun _ => .cpABx pair))),
    pat op 0xF7 0x25 (some (0, fun _ => .decRx q (halfOf (bits op 3 1)))),
    only q .ix (pat op 0xFF 0x3D (some (2, fun bs => .decDa (at16 bs 0)))),
    only q .iy (pat op 0xE7 0x05 (do let base ← xx? (bits op 3 2); some (2, fun bs => .decX base (at16 bs 0)))),
    pat op 0xFF 0x35 (some (1, fun bs => .decSx q (at8 bs 0))),
    only q .iy (pat op 0xFF 0x05 (some (2, fun bs => .decRa (at16 bs 0)))),
    only q .ix (pat op 0xFF 0x05 (some (2, fun bs => .decSr (at16 bs 0)))),
    only q .ix (pat op 0xE7 0x05 (do let pair ← bx? (bits op 3 2); some (0, fun _ => .decBx pair))),
    pat op 0xF7 0x24 (some (0, fun _ => .incRx q (halfOf (bits op 3 1)))),
    only q .ix (pat op 0xFF 0x3C (some (2, fun bs => .incDa (at16 bs 0)))),
    only q .iy (pat op 0xE7 0x04 (do let base ← xx? (bits op 3 2); some (2, fun bs => .incX base (at16 bs 0)))),
    pat op 0xFF 0x34 (some (1, fun bs => .incSx q (at8 bs 0))),
    only q .iy (pat op 0xFF 0x04 (some (2, fun bs => .incRa (at16 bs 0)))),
    only q .ix (pat op 0xFF 0x04 (some (2, fun bs => .incSr (at16 bs 0)))),
    only q .ix (pat op 0xE7 0x04 (do let pair ← bx? (bits op 3 2); some (0, fun _ => .incBx pair))),
    pat op 0xCF 0x09 (some (0, fun _ => .addXyRr q (rrxOf (bits op 4 2)))),
    pat op 0xFF 0x2B (some (0, fun _ => .decwXy q)),
    only q .ix (pat op 0xFF 0x0B (some (0, fun _ => .decwHl))),
    only q .ix (pat op 0xFF 0x1B (some (2, fun bs => .decwDa (at16 bs 0)))),
    only q .iy (pat op 0xEF 0x0B (some (2, fun bs => .decwX (xyOf (bits op 4 1)) (at16 bs 0)))),
    only q .ix (pat op 0xFF 0x3B (some (2, fun bs => .decwRa (at16 bs 0)))),
    pat op 0xFF 0x23 (some (0, fun _ => .incwXy q)),
    only q .ix (pat op 0xFF 0x03 (some (0, fun _ => .incwHl))),
    only q .ix (pat op 0xFF 0x13 (some (2, fun bs => .incwDa (at16 bs 0)))),
    only q .iy (pat op 0xEF 0x03 (some (2, fun bs => .incwX (xyOf (bits op 4 1)) (at16 bs 0)))),
    only q .ix (pat op 0xFF 0x33 (some (2, fun bs => .incwRa (at16 bs 0)))),
    only q .ix (pat op 0xC7 0xC4 (some (0, fun _ => .callCcHl (ccOf (bits op 3 3))))),
    only q .ix (pat op 0xFF 0xCD (some (0, fun _ => .callHl))),
    only q .iy (pat op 0xC7 0xC4 (some (2, fun bs => .callCcRa (ccOf (bits op 3 3)) (at16 bs 0)))),
    only q .iy (pat op 0xFF 0xCD (some (2, fun bs => .callRa (at16 bs 0)))),
    only q .ix (pat op 0xC7 0xC2 (some (0, fun _ => .jpCcHl (ccOf (bits op 3 3))))),
    pat op 0xFF 0xE9 (some (0, fun _ => .jpXy q)),
    only q .iy (pat op 0xC7 0xC2 (some (2, fun bs => .jpCcRa (ccOf (bits op 3 3)) (at16 bs 0)))),
    only q .iy (pat op 0xFF 0xC3 (some (2, fun bs => .jpRa (at16 bs 0)))),
    only q .ix (pat op 0xFF 0x28 (some (1, fun bs => .jaf (at8 bs 0)))),
    only q .ix (pat op 0xFF 0x20 (some (1, fun bs => .jar (at8 bs 0)))) ]

/-- The rows of pages DD ED and FD ED (R115). -/
def rowsXYED (q : XY) (op : Byte) : List (Option Shape) :=
  [ pat op 0xF7 0x27 (some (0, fun _ => .exARx q (halfOf (bits op 3 1)))),
    only q .ix (pat op 0xFF 0x3F (some (2, fun bs => .exADa (at16 bs 0)))),
    only q .iy (pat op 0xE7 0x07 (do let base ← xx? (bits op 3 2); some (2, fun bs => .exAX base (at16 bs 0)))),
    pat op 0xFF 0x37 (some (1, fun bs => .exASx q (at8 bs 0))),
    only q .iy (pat op 0xFF 0x07 (some (2, fun bs => .exARa (at16 bs 0)))),
    only q .ix (pat op 0xFF 0x07 (some (2, fun bs => .exASr (at16 bs 0)))),
    only q .ix (pat op 0xE7 0x07 (do let pair ← bx? (bits op 3 2); some (0, fun _ => .exABx pair))),
    pat op 0xFF 0x86 (some (1, fun bs => .ldudASx q (at8 bs 0))),
    pat op 0xFF 0x8E (some (1, fun bs => .ldudSxA q (at8 bs 0))),
    pat op 0xFF 0x96 (some (1, fun bs => .ldupASx q (at8 bs 0))),
    pat op 0xFF 0x9E (some (1, fun bs => .ldupSxA q (at8 bs 0))),
    pat op 0xE7 0x22 (do let base ← xx? (bits op 3 2); some (2, fun bs => .ldaXyX q base (at16 bs 0))),
    pat op 0xFF 0x22 (some (2, fun bs => .ldaXyRa q (at16 bs 0))),
    pat op 0xFF 0x02 (some (2, fun bs => .ldaXySr q (at16 bs 0))),
    pat op 0xE7 0x02 (do let pair ← bx? (bits op 3 2); some (0, fun _ => .ldaXyBx q pair)),
    pat op 0xF7 0xE4 (some (0, fun _ => .divRx q (halfOf (bits op 3 1)))),
    only q .iy (pat op 0xFF 0xFC (some (1, fun bs => .divN (at8 bs 0)))),
    only q .ix (pat op 0xFF 0xFC (some (2, fun bs => .divDa (at16 bs 0)))),
    only q .iy (pat op 0xE7 0xC4 (do let base ← xx? (bits op 3 2); some (2, fun bs => .divX base (at16 bs 0)))),
    pat op 0xFF 0xF4 (some (1, fun bs => .divSx q (at8 bs 0))),
    only q .iy (pat op 0xFF 0xC4 (some (2, fun bs => .divRa (at16 bs 0)))),
    only q .ix (pat op 0xFF 0xC4 (some (2, fun bs => .divSr (at16 bs 0)))),
    only q .ix (pat op 0xE7 0xC4 (do let pair ← bx? (bits op 3 2); some (0, fun _ => .divBx pair))),
    pat op 0xF7 0xE5 (some (0, fun _ => .divuRx q (halfOf (bits op 3 1)))),
    only q .iy (pat op 0xFF 0xFD (some (1, fun bs => .divuN (at8 bs 0)))),
    only q .ix (pat op 0xFF 0xFD (some (2, fun bs => .divuDa (at16 bs 0)))),
    only q .iy (pat op 0xE7 0xC5 (do let base ← xx? (bits op 3 2); some (2, fun bs => .divuX base (at16 bs 0)))),
    pat op 0xFF 0xF5 (some (1, fun bs => .divuSx q (at8 bs 0))),
    only q .iy (pat op 0xFF 0xC5 (some (2, fun bs => .divuRa (at16 bs 0)))),
    only q .ix (pat op 0xFF 0xC5 (some (2, fun bs => .divuSr (at16 bs 0)))),
    only q .ix (pat op 0xE7 0xC5 (do let pair ← bx? (bits op 3 2); some (0, fun _ => .divuBx pair))),
    pat op 0xCF 0x4A (some (0, fun _ => .adcXyRr q (rrxOf (bits op 4 2)))),
    pat op 0xFF 0x6D (some (0, fun _ => .addXyA q)),
    pat op 0xFF 0xE6 (some (0, fun _ => .addwXy q)),
    only q .iy (pat op 0xFF 0xF6 (some (2, fun bs => .addwN (at16 bs 0)))),
    only q .ix (pat op 0xFF 0xD6 (some (2, fun bs => .addwDa (at16 bs 0)))),
    only q .iy (pat op 0xEF 0xC6 (some (2, fun bs => .addwX (xyOf (bits op 4 1)) (at16 bs 0)))),
    only q .ix (pat op 0xFF 0xF6 (some (2, fun bs => .addwRa (at16 bs 0)))),
    only q .ix (pat op 0xFF 0xC6 (some (0, fun _ => .addwHl))),
    pat op 0xFF 0xE7 (some (0, fun _ => .cpwXy q)),
    only q .iy (pat op 0xFF 0xF7 (some (2, fun bs => .cpwN (at16 bs 0)))),
    only q .ix (pat op 0xFF 0xD7 (some (2, fun bs => .cpwDa (at16 bs 0)))),
    only q .iy (pat op 0xEF 0xC7 (some (2, fun bs => .cpwX (xyOf (bits op 4 1)) (at16 bs 0)))),
    only q .ix (pat op 0xFF 0xF7 (some (2, fun bs => .cpwRa (at16 bs 0)))),
    only q .ix (pat op 0xFF 0xC7 (some (0, fun _ => .cpwHl))),
    pat op 0xFF 0xEA (some (0, fun _ => .divwXy q)),
    only q .iy (pat op 0xFF 0xFA (some (2, fun bs => .divwN (at16 bs 0)))),
    only q .ix (pat op 0xFF 0xDA (some (2, fun bs => .divwDa (at16 bs 0)))),
    only q .iy (pat op 0xEF 0xCA (some (2, fun bs => .divwX (xyOf (bits op 4 1)) (at16 bs 0)))),
    only q .ix (pat op 0xFF 0xFA (some (2, fun bs => .divwRa (at16 bs 0)))),
    only q .ix (pat op 0xFF 0xCA (some (0, fun _ => .divwHl))),
    pat op 0xFF 0xEB (some (0, fun _ => .divuwXy q)),
    only q .iy (pat op 0xFF 0xFB (some (2, fun bs => .divuwN (at16 bs 0)))),
    only q .ix (pat op 0xFF 0xDB (some (2, fun bs => .divuwDa (at16 bs 0)))),
    only q .iy (pat op 0xEF 0xCB (some (2, fun bs => .divuwX (xyOf (bits op 4 1)) (at16 bs 0)))),
    only q .ix (pat op 0xFF 0xFB (some (2, fun bs => .divuwRa (at16 bs 0)))),
    only q .ix (pat op 0xFF 0xCB (some (0, fun _ => .divuwHl))),
    pat op 0xF7 0x60 (some (0, fun _ => .inRx q (halfOf (bits op 3 1)))),
    only q .ix (pat op 0xFF 0x78 (some (2, fun bs => .inDa (at16 bs 0)))),
    only q .iy (pat op 0xE7 0x40 (do let base ← xx? (bits op 3 2); some (2, fun bs => .inX base (at16 bs 0)))),
    only q .iy (pat op 0xFF 0x40 (some (2, fun bs => .inRa (at16 bs 0)))),
    only q .ix (pat op 0xFF 0x40 (some (2, fun bs => .inSr (at16 bs 0)))),
    only q .ix (pat op 0xE7 0x40 (do let pair ← bx? (bits op 3 2); some (0, fun _ => .inBx pair))),
    pat op 0xFF 0x66 (some (0, fun _ => .ldctlXyC q)),
    pat op 0xFF 0x6E (some (0, fun _ => .ldctlCXy q)),
    pat op 0xFF 0x87 (some (0, fun _ => .ldctlXyUsp q)),
    pat op 0xFF 0x8F (some (0, fun _ => .ldctlUspXy q)) ]

/-- The one row of pages DD CB and FD CB, in which the displacement stands before the opcode byte (R113). -/
def rowXYCB (q : XY) (d op : Byte) : Option Instr :=
  if op &&& 0xC7 = 0x46 then some (.bitSx q d (BitVec.ofNat 3 (bits op 3 3))) else none

/-! ### The decoder -/

/-- What a list of bytes decodes to (30_encoding.md R116). -/
inductive Decoded
  /-- An instruction, and the bytes after it. -/
  | ok (i : Instr) (rest : List Byte)
  /-- The bytes are the beginning of an instruction: the next byte is needed. -/
  | short
  /-- No row of the table begins so: unassigned (R118, R119). -/
  | unassigned
  deriving DecidableEq, Repr

/-- Decoding at the opcode byte of a page. -/
def decodeOp (page : Byte → List (Option Shape)) : List Byte → Decoded
  | [] => .short
  | op :: rest =>
    match firstOf (page op) with
    | none => .unassigned
    | some (n, k) => if rest.length < n then .short else .ok (k rest) (rest.drop n)

/-- Decoding after the byte CBh of pages DD CB and FD CB: displacement, then opcode (R90). -/
def decodeXYCB (q : XY) : List Byte → Decoded
  | [] => .short
  | [_] => .short
  | d :: op :: rest =>
    match rowXYCB q d op with
    | none => .unassigned
    | some i => .ok i rest

/-- Decoding after a first byte DDh or FDh (R93). -/
def decodeXY (q : XY) : List Byte → Decoded
  | [] => .short
  | b :: rest =>
    if b = 0xED then decodeOp (rowsXYED q) rest
    else if b = 0xCB then decodeXYCB q rest
    else decodeOp (rowsXY q) (b :: rest)

/-- The decoder of 30_encoding.md R116: total on any list of bytes. No mode bit changes it. -/
def decode : List Byte → Decoded
  | [] => .short
  | b :: rest =>
    if b = 0xDD then decodeXY .ix rest
    else if b = 0xFD then decodeXY .iy rest
    else if b = 0xED then decodeOp rowsED rest
    else if b = 0xCB then decodeOp rowsCB rest
    else decodeOp rows0 (b :: rest)

/-! ### The encoder -/

/-- An opcode byte given as a number. -/
def opb (n : Nat) : Byte := BitVec.ofNat 8 n


/-- The bytes of an instruction, in memory order, from the `encoding` column of the table (30_encoding.md R91, R92). -/
def encode : Instr → List Byte
  | .ldReg r r2 => [opb (0x40 + 8 * r.code + r2.code)]
  | .ldGRx xy g half => [xy.lead, opb (0x44 + 8 * g.code + half.code)]
  | .ldRxRx xy half half2 => [xy.lead, opb (0x64 + 8 * half.code + half2.code)]
  | .ldRxG xy half g => [xy.lead, opb (0x60 + 8 * half.code + g.code)]
  | .ldRHl r => [opb (0x46 + 8 * r.code)]
  | .ldRSx xy r d => [xy.lead, opb (0x46 + 8 * r.code), d]
  | .ldHlR r => [opb (0x70 + r.code)]
  | .ldSxR xy r d => [xy.lead, opb (0x70 + r.code), d]
  | .ldRN r n => [opb (0x06 + 8 * r.code), n]
  | .ldRxN xy half n => [xy.lead, opb (0x26 + 8 * half.code), n]
  | .ldHlN n => [0x36, n]
  | .ldDaN addr n => [0xDD, 0x3E, loByte addr, hiByte addr, n]
  | .ldXN base dd n => [0xFD, opb (0x06 + 8 * base.code), loByte dd, hiByte dd, n]
  | .ldSxN xy d n => [xy.lead, 0x36, d, n]
  | .ldRaN disp n => [0xFD, 0x06, loByte disp, hiByte disp, n]
  | .ldSrN dd n => [0xDD, 0x06, loByte dd, hiByte dd, n]
  | .ldBxN pair n => [0xDD, opb (0x06 + 8 * pair.code), n]
  | .ldAIr bd => [opb (0x0A + 16 * bd.code)]
  | .ldADa addr => [0x3A, loByte addr, hiByte addr]
  | .ldAX base dd => [0xFD, opb (0x78 + base.code), loByte dd, hiByte dd]
  | .ldARa disp => [0xFD, 0x78, loByte disp, hiByte disp]
  | .ldASr dd => [0xDD, 0x78, loByte dd, hiByte dd]
  | .ldABx pair => [0xDD, opb (0x78 + pair.code)]
  | .ldIrA bd => [opb (0x02 + 16 * bd.code)]
  | .ldDaA addr => [0x32, loByte addr, hiByte addr]
  | .ldXA base dd => [0xED, opb (0x23 + 8 * base.code), loByte dd, hiByte dd]
  | .ldRaA disp => [0xED, 0x23, loByte disp, hiByte disp]
  | .ldSrA dd => [0xED, 0x03, loByte dd, hiByte dd]
  | .ldBxA pair => [0xED, opb (0x03 + 8 * pair.code)]
  | .exAR r => [0xED, opb (0x07 + 8 * r.code)]
  | .exARx xy half => [xy.lead, 0xED, opb (0x27 + 8 * half.code)]
  | .exAHl => [0xED, 0x37]
  | .exADa addr => [0xDD, 0xED, 0x3F, loByte addr, hiByte addr]
  | .exAX base dd => [0xFD, 0xED, opb (0x07 + 8 * base.code), loByte dd, hiByte dd]
  | .exASx xy d => [xy.lead, 0xED, 0x37, d]
  | .exARa disp => [0xFD, 0xED, 0x07, loByte disp, hiByte disp]
  | .exASr dd => [0xDD, 0xED, 0x07, loByte dd, hiByte dd]
  | .exABx pair => [0xDD, 0xED, opb (0x07 + 8 * pair.code)]
  | .exHL => [0xED, 0xEF]
  | .ldudAHl => [0xED, 0x86]
  | .ldudASx xy d => [xy.lead, 0xED, 0x86, d]
  | .ldudHlA => [0xED, 0x8E]
  | .ldudSxA xy d => [xy.lead, 0xED, 0x8E, d]
  | .ldupAHl => [0xED, 0x96]
  | .ldupASx xy d => [xy.lead, 0xED, 0x96, d]
  | .ldupHlA => [0xED, 0x9E]
  | .ldupSxA xy d => [xy.lead, 0xED, 0x9E, d]
  | .exDeHl => [0xEB]
  | .exXyHl xy => [xy.lead, 0xEB]
  | .exAfAf => [0x08]
  | .exx => [0xD9]
  | .exSpHl => [0xE3]
  | .exSpXy xy => [xy.lead, 0xE3]
  | .ldaHlX base dd => [0xED, opb (0x22 + 8 * base.code), loByte dd, hiByte dd]
  | .ldaXyX xy base dd => [xy.lead, 0xED, opb (0x22 + 8 * base.code), loByte dd, hiByte dd]
  | .ldaHlRa disp => [0xED, 0x22, loByte disp, hiByte disp]
  | .ldaXyRa xy disp => [xy.lead, 0xED, 0x22, loByte disp, hiByte disp]
  | .ldaHlSr dd => [0xED, 0x02, loByte dd, hiByte dd]
  | .ldaXySr xy dd => [xy.lead, 0xED, 0x02, loByte dd, hiByte dd]
  | .ldaHlBx pair => [0xED, opb (0x02 + 8 * pair.code)]
  | .ldaXyBx xy pair => [xy.lead, 0xED, opb (0x02 + 8 * pair.code)]
  | .ldwRrN w nn => [opb (0x01 + 16 * w.code), loByte nn, hiByte nn]
  | .ldwXyN xy nn => [xy.lead, 0x21, loByte nn, hiByte nn]
  | .ldwHlN nn => [0xDD, 0x01, loByte nn, hiByte nn]
  | .ldwDaN addr nn => [0xDD, 0x11, loByte addr, hiByte addr, loByte nn, hiByte nn]
  | .ldwRaN disp nn => [0xDD, 0x31, loByte disp, hiByte disp, loByte nn, hiByte nn]
  | .ldi => [0xED, 0xA0]
  | .ldd => [0xED, 0xA8]
  | .ldir => [0xED, 0xB0]
  | .lddr => [0xED, 0xB8]
  | .cpi => [0xED, 0xA1]
  | .cpd => [0xED, 0xA9]
  | .cpir => [0xED, 0xB1]
  | .cpdr => [0xED, 0xB9]
  | .adcAR r => [opb (0x88 + r.code)]
  | .adcARx xy half => [xy.lead, opb (0x8C + half.code)]
  | .adcAN n => [0xCE, n]
  | .adcAHl => [0x8E]
  | .adcADa addr => [0xDD, 0x8F, loByte addr, hiByte addr]
  | .adcAX base dd => [0xFD, opb (0x88 + base.code), loByte dd, hiByte dd]
  | .adcASx xy d => [xy.lead, 0x8E, d]
  | .adcARa disp => [0xFD, 0x88, loByte disp, hiByte disp]
  | .adcASr dd => [0xDD, 0x88, loByte dd, hiByte dd]
  | .adcABx pair => [0xDD, opb (0x88 + pair.code)]
  | .addAR r => [opb (0x80 + r.code)]
  | .addARx xy half => [xy.lead, opb (0x84 + half.code)]
  | .addAN n => [0xC6, n]
  | .addAHl => [0x86]
  | .addADa addr => [0xDD, 0x87, loByte addr, hiByte addr]
  | .addAX base dd => [0xFD, opb (0x80 + base.code), loByte dd, hiByte dd]
  | .addASx xy d => [xy.lead, 0x86, d]
  | .addARa disp => [0xFD, 0x80, loByte disp, hiByte disp]
  | .addASr dd => [0xDD, 0x80, loByte dd, hiByte dd]
  | .addABx pair => [0xDD, opb (0x80 + pair.code)]
  | .andAR r => [opb (0xA0 + r.code)]
  | .andARx xy half => [xy.lead, opb (0xA4 + half.code)]
  | .andAN n => [0xE6, n]
  | .andAHl => [0xA6]
  | .andADa addr => [0xDD, 0xA7, loByte addr, hiByte addr]
  | .andAX base dd => [0xFD, opb (0xA0 + base.code), loByte dd, hiByte dd]
  | .andASx xy d => [xy.lead, 0xA6, d]
  | .andARa disp => [0xFD, 0xA0, loByte disp, hiByte disp]
  | .andASr dd => [0xDD, 0xA0, loByte dd, hiByte dd]
  | .andABx pair => [0xDD, opb (0xA0 + pair.code)]
  | .cpAR r => [opb (0xB8 + r.code)]
  | .cpARx xy half => [xy.lead, opb (0xBC + half.code)]
  | .cpAN n => [0xFE, n]
  | .cpAHl => [0xBE]
  | .cpADa addr => [0xDD, 0xBF, loByte addr, hiByte addr]
  | .cpAX base dd => [0xFD, opb (0xB8 + base.code), loByte dd, hiByte dd]
  | .cpASx xy d => [xy.lead, 0xBE, d]
  | .cpARa disp => [0xFD, 0xB8, loByte disp, hiByte disp]
  | .cpASr dd => [0xDD, 0xB8, loByte dd, hiByte dd]
  | .cpABx pair => [0xDD, opb (0xB8 + pair.code)]
  | .cpl => [0x2F]
  | .daa => [0x27]
  | .decR r => [opb (0x05 + 8 * r.code)]
  | .decRx xy half => [xy.lead, opb (0x25 + 8 * half.code)]
  | .decHl => [0x35]
  | .decDa addr => [0xDD, 0x3D, loByte addr, hiByte addr]
  | .decX base dd => [0xFD, opb (0x05 + 8 * base.code), loByte dd, hiByte dd]
  | .decSx xy d => [xy.lead, 0x35, d]
  | .decRa disp => [0xFD, 0x05, loByte disp, hiByte disp]
  | .decSr dd => [0xDD, 0x05, loByte dd, hiByte dd]
  | .decBx pair => [0xDD, opb (0x05 + 8 * pair.code)]
  | .divR r => [0xED, opb (0xC4 + 8 * r.code)]
  | .divRx xy half => [xy.lead, 0xED, opb (0xE4 + 8 * half.code)]
  | .divN n => [0xFD, 0xED, 0xFC, n]
  | .divHl => [0xED, 0xF4]
  | .divDa addr => [0xDD, 0xED, 0xFC, loByte addr, hiByte addr]
  | .divX base dd => [0xFD, 0xED, opb (0xC4 + 8 * base.code), loByte dd, hiByte dd]
  | .divSx xy d => [xy.lead, 0xED, 0xF4, d]
  | .divRa disp => [0xFD, 0xED, 0xC4, loByte disp, hiByte disp]
  | .divSr dd => [0xDD, 0xED, 0xC4, loByte dd, hiByte dd]
  | .divBx pair => [0xDD, 0xED, opb (0xC4 + 8 * pair.code)]
  | .divuR r => [0xED, opb (0xC5 + 8 * r.code)]
  | .divuRx xy half => [xy.lead, 0xED, opb (0xE5 + 8 * half.code)]
  | .divuN n => [0xFD, 0xED, 0xFD, n]
  | .divuHl => [0xED, 0xF5]
  | .divuDa addr => [0xDD, 0xED, 0xFD, loByte addr, hiByte addr]
  | .divuX base dd => [0xFD, 0xED, opb (0xC5 + 8 * base.code), loByte dd, hiByte dd]
  | .divuSx xy d => [xy.lead, 0xED, 0xF5, d]
  | .divuRa disp => [0xFD, 0xED, 0xC5, loByte disp, hiByte disp]
  | .divuSr dd => [0xDD, 0xED, 0xC5, loByte dd, hiByte dd]
  | .divuBx pair => [0xDD, 0xED, opb (0xC5 + 8 * pair.code)]
  | .extsA => [0xED, 0x64]
  | .incR r => [opb (0x04 + 8 * r.code)]
  | .incRx xy half => [xy.lead, opb (0x24 + 8 * half.code)]
  | .incHl => [0x34]
  | .incDa addr => [0xDD, 0x3C, loByte addr, hiByte addr]
  | .incX base dd => [0xFD, opb (0x04 + 8 * base.code), loByte dd, hiByte dd]
  | .incSx xy d => [xy.lead, 0x34, d]
  | .incRa disp => [0xFD, 0x04, loByte disp, hiByte disp]
  | .incSr dd => [0xDD, 0x04, loByte dd, hiByte dd]
  | .incBx pair => [0xDD, opb (0x04 + 8 * pair.code)]
  | .adcHlRr w => [0xED, opb (0x4A + 16 * w.code)]
  | .adcXyRr xy w => [xy.lead, 0xED, opb (0x4A + 16 * w.code)]
  | .addHlRr w => [opb (0x09 + 16 * w.code)]
  | .addXyRr xy w => [xy.lead, opb (0x09 + 16 * w.code)]
  | .addHlA => [0xED, 0x6D]
  | .addXyA xy => [xy.lead, 0xED, 0x6D]
  | .addwRr w => [0xED, opb (0xC6 + 16 * w.code)]
  | .addwXy xy => [xy.lead, 0xED, 0xE6]
  | .addwN nn => [0xFD, 0xED, 0xF6, loByte nn, hiByte nn]
  | .addwDa addr => [0xDD, 0xED, 0xD6, loByte addr, hiByte addr]
  | .addwX xy dd => [0xFD, 0xED, opb (0xC6 + 16 * xy.code), loByte dd, hiByte dd]
  | .addwRa disp => [0xDD, 0xED, 0xF6, loByte disp, hiByte disp]
  | .addwHl => [0xDD, 0xED, 0xC6]
  | .cpwRr w => [0xED, opb (0xC7 + 16 * w.code)]
  | .cpwXy xy => [xy.lead, 0xED, 0xE7]
  | .cpwN nn => [0xFD, 0xED, 0xF7, loByte nn, hiByte nn]
  | .cpwDa addr => [0xDD, 0xED, 0xD7, loByte addr, hiByte addr]
  | .cpwX xy dd => [0xFD, 0xED, opb (0xC7 + 16 * xy.code), loByte dd, hiByte dd]
  | .cpwRa disp => [0xDD, 0xED, 0xF7, loByte disp, hiByte disp]
  | .cpwHl => [0xDD, 0xED, 0xC7]
  | .decwRr w => [opb (0x0B + 16 * w.code)]
  | .decwXy xy => [xy.lead, 0x2B]
  | .decwHl => [0xDD, 0x0B]
  | .decwDa addr => [0xDD, 0x1B, loByte addr, hiByte addr]
  | .decwX xy dd => [0xFD, opb (0x0B + 16 * xy.code), loByte dd, hiByte dd]
  | .decwRa disp => [0xDD, 0x3B, loByte disp, hiByte disp]
  | .divwRr w => [0xED, opb (0xCA + 16 * w.code)]
  | .divwXy xy => [xy.lead, 0xED, 0xEA]
  | .divwN nn => [0xFD, 0xED, 0xFA, loByte nn, hiByte nn]
  | .divwDa addr => [0xDD, 0xED, 0xDA, loByte addr, hiByte addr]
  | .divwX xy dd => [0xFD, 0xED, opb (0xCA + 16 * xy.code), loByte dd, hiByte dd]
  | .divwRa disp => [0xDD, 0xED, 0xFA, loByte disp, hiByte disp]
  | .divwHl => [0xDD, 0xED, 0xCA]
  | .divuwRr w => [0xED, opb (0xCB + 16 * w.code)]
  | .divuwXy xy => [xy.lead, 0xED, 0xEB]
  | .divuwN nn => [0xFD, 0xED, 0xFB, loByte nn, hiByte nn]
  | .divuwDa addr => [0xDD, 0xED, 0xDB, loByte addr, hiByte addr]
  | .divuwX xy dd => [0xFD, 0xED, opb (0xCB + 16 * xy.code), loByte dd, hiByte dd]
  | .divuwRa disp => [0xDD, 0xED, 0xFB, loByte disp, hiByte disp]
  | .divuwHl => [0xDD, 0xED, 0xCB]
  | .extsHl => [0xED, 0x6C]
  | .incwRr w => [opb (0x03 + 16 * w.code)]
  | .incwXy xy => [xy.lead, 0x23]
  | .incwHl => [0xDD, 0x03]
  | .incwDa addr => [0xDD, 0x13, loByte addr, hiByte addr]
  | .incwX xy dd => [0xFD, opb (0x03 + 16 * xy.code), loByte dd, hiByte dd]
  | .incwRa disp => [0xDD, 0x33, loByte disp, hiByte disp]
  | .bitR bit r => [0xCB, opb (0x40 + 8 * bit.toNat + r.code)]
  | .bitHl bit => [0xCB, opb (0x46 + 8 * bit.toNat)]
  | .bitSx xy d bit => [xy.lead, 0xCB, d, opb (0x46 + 8 * bit.toNat)]
  | .callCcHl cc => [0xDD, opb (0xC4 + 8 * cc.code)]
  | .callHl => [0xDD, 0xCD]
  | .callCc cc addr => [opb (0xC4 + 8 * cc.code), loByte addr, hiByte addr]
  | .callDa addr => [0xCD, loByte addr, hiByte addr]
  | .callCcRa cc disp => [0xFD, opb (0xC4 + 8 * cc.code), loByte disp, hiByte disp]
  | .callRa disp => [0xFD, 0xCD, loByte disp, hiByte disp]
  | .ccf => [0x3F]
  | .djnz disp => [0x10, disp]
  | .jpCcHl cc => [0xDD, opb (0xC2 + 8 * cc.code)]
  | .jpHl => [0xE9]
  | .jpXy xy => [xy.lead, 0xE9]
  | .jpCc cc addr => [opb (0xC2 + 8 * cc.code), loByte addr, hiByte addr]
  | .jpDa addr => [0xC3, loByte addr, hiByte addr]
  | .jpCcRa cc disp => [0xFD, opb (0xC2 + 8 * cc.code), loByte disp, hiByte disp]
  | .jpRa disp => [0xFD, 0xC3, loByte disp, hiByte disp]
  | .jrCc jcc disp => [opb (0x20 + 8 * jcc.code), disp]
  | .jr disp => [0x18, disp]
  | .jaf disp => [0xDD, 0x28, disp]
  | .jar disp => [0xDD, 0x20, disp]
  | .inR r => [0xED, opb (0x40 + 8 * r.code)]
  | .inRx xy half => [xy.lead, 0xED, opb (0x60 + 8 * half.code)]
  | .inDa addr => [0xDD, 0xED, 0x78, loByte addr, hiByte addr]
  | .inX base dd => [0xFD, 0xED, opb (0x40 + 8 * base.code), loByte dd, hiByte dd]
  | .inRa disp => [0xFD, 0xED, 0x40, loByte disp, hiByte disp]
  | .inSr dd => [0xDD, 0xED, 0x40, loByte dd, hiByte dd]
  | .inBx pair => [0xDD, 0xED, opb (0x40 + 8 * pair.code)]
  | .inAN n => [0xDB, n]
  | .inw => [0xED, 0xB7]
  | .ini => [0xED, 0xA2]
  | .iniw => [0xED, 0x82]
  | .ind => [0xED, 0xAA]
  | .indw => [0xED, 0x8A]
  | .inir => [0xED, 0xB2]
  | .inirw => [0xED, 0x92]
  | .indr => [0xED, 0xBA]
  | .indrw => [0xED, 0x9A]
  | .di => [0xF3]
  | .diMask mask => [0xED, 0x77, mask]
  | .ei => [0xFB]
  | .eiMask mask => [0xED, 0x7F, mask]
  | .halt => [0x76]
  | .im0 => [0xED, 0x46]
  | .im1 => [0xED, 0x56]
  | .im2 => [0xED, 0x5E]
  | .im3 => [0xED, 0x4E]
  | .ldIA => [0xED, 0x47]
  | .ldRfA => [0xED, 0x4F]
  | .ldAI => [0xED, 0x57]
  | .ldARf => [0xED, 0x5F]
  | .ldctlHlC => [0xED, 0x66]
  | .ldctlXyC xy => [xy.lead, 0xED, 0x66]
  | .ldctlCHl => [0xED, 0x6E]
  | .ldctlCXy xy => [xy.lead, 0xED, 0x6E]
  | .ldctlHlUsp => [0xED, 0x87]
  | .ldctlXyUsp xy => [xy.lead, 0xED, 0x87]
  | .ldctlUspHl => [0xED, 0x8F]
  | .ldctlUspXy xy => [xy.lead, 0xED, 0x8F]

/-! ### Words numbered as spec/opcode_table.json numbers them -/

/-- The `n` bytes of `w`, the most significant one first. -/
def bytesHighFirst : Nat → Nat → List Byte
  | 0, _ => []
  | n + 1, w => BitVec.ofNat 8 (w / 256 ^ n) :: bytesHighFirst n w

/-- The `n` bytes of `w`, the least significant one first. -/
def bytesLowFirst : Nat → Nat → List Byte
  | 0, _ => []
  | n + 1, w => BitVec.ofNat 8 w :: bytesLowFirst n (w / 256)

/-- The bytes with operand bytes of zero after them, up to the longest instruction: 6 bytes (R90). -/
def padded (bs : List Byte) : List Byte := bs ++ List.replicate (6 - bs.length) 0

/-- One of the four lead bytes of R93. -/
def isLead (b : Byte) : Bool := b == 0xDD || b == 0xFD || b == 0xED || b == 0xCB

/-- The bytes decode to an instruction of exactly as many bytes. -/
def decodesWhole (bs : List Byte) : Bool :=
  match decode bs with
  | .ok _ rest => rest.isEmpty
  | _ => false

/-- The bytes in memory order of an instruction whose bits are `w`. The table's own `fixed` and `fields` entries number
a row's bytes with the FIRST byte in the most significant place (98_reader.md); that reading is taken, unless only the
reading with the first byte in the least significant place is an instruction of that length (log 21). -/
def tableBytes (nbits w : Nat) : List Byte :=
  let n := (nbits + 7) / 8
  let high := bytesHighFirst n w
  let low := bytesLowFirst n w
  if decodesWhole high || isLead (high.headD 0) then padded high
  else if decodesWhole low then padded low
  else padded high

/-- The instruction this decoder reads from an instruction whose bits are `w`, numbered as spec/opcode_table.json
numbers them; operand bytes above `nbits` are zero. -/
def decodeTableWord (nbits w : Nat) : Option Instr :=
  match decode (tableBytes nbits w) with
  | .ok i _ => some i
  | .short => none
  | .unassigned => none

end Sys2Proof
end

