-- ==== Sys2Proof/Machine/Memory.lean ====
section
/-! DEFINITION. Physical memory, the set of written addresses, translation, and the byte and word accesses of
20_memory.md R64. -/

namespace Sys2Proof.Machine

/-! ### Physical memory -/

/-- What a byte that is not listed reads as (log 3: DESIGN CHOICE, unsafe). -/
def unlistedByte : Byte := 0

/-- The byte a list of cells holds at an address. -/
def lookupCell (a : Nat) : List Host.Cell → Byte
  | [] => unlistedByte
  | (k, v) :: t => if k = a then v else lookupCell a t

/-- The list with the byte at `a` changed, in the canonical form. -/
def storeCell (a : Nat) (b : Byte) : List Host.Cell → List Host.Cell
  | [] => if b = unlistedByte then [] else [(a, b)]
  | (k, v) :: t =>
    if a < k then (if b = unlistedByte then (k, v) :: t else (a, b) :: (k, v) :: t)
    else if a = k then (if b = unlistedByte then t else (a, b) :: t)
    else (k, v) :: storeCell a b t

/-- Addresses strictly rising from `lo` on and below 2^24, and no cell equal to what an unlisted address reads as. -/
def cellsWf (lo : Nat) : List Host.Cell → Bool
  | [] => true
  | (k, v) :: t => decide (lo ≤ k) && decide (k < 2 ^ 24) && decide (v ≠ unlistedByte) && cellsWf (k + 1) t

/-- The canonical form of memory. -/
def Memory.wf (m : Memory) : Bool := cellsWf 0 m.cells

/-- The byte at a physical address (R69). -/
def Memory.get (m : Memory) (p : PhysAddr) : Byte := lookupCell p.toNat m.cells

/-- Memory with one byte changed (R69). -/
def Memory.set (m : Memory) (p : PhysAddr) (b : Byte) : Memory := { cells := storeCell p.toNat b m.cells }

/-! ### The set of addresses written since launch (R82) -/

/-- The set with one address more, strictly rising. -/
def insertAddr (a : Nat) : List Nat → List Nat
  | [] => [a]
  | k :: t => if a < k then a :: k :: t else if a = k then k :: t else k :: insertAddr a t

/-- The set with one address less. -/
def removeAddr (a : Nat) : List Nat → List Nat
  | [] => []
  | k :: t => if a = k then t else k :: removeAddr a t

/-- Strictly rising from `lo` on and below 2^24. -/
def addrsWf (lo : Nat) : List Nat → Bool
  | [] => true
  | k :: t => decide (lo ≤ k) && decide (k < 2 ^ 24) && addrsWf (k + 1) t

/-- Whether a physical address was written since launch. -/
def State.wasWritten (s : State) (p : PhysAddr) : Bool := s.written.contains p.toNat

/-- `phys[t] <- b` of R64: the byte changes and its address joins the written set (R82). -/
def State.putByte (s : State) (p : PhysAddr) (b : Byte) : State :=
  { s with mem := s.mem.set p b, written := insertAddr p.toNat s.written }

/-! ### Mode, spaces and translation -/

/-- The current privilege mode, a bit of MSR (10_state.md R45, 60_exceptions.md R350). -/
def State.mode (s : State) : Mode := if s.msr.getLsbD s.cfg.msrUS = s.cfg.userWhen then .user else .system

/-- `cur_prog` (R63). -/
def State.curProg (s : State) : Space := { mode := s.mode, kind := .program }

/-- `cur_data` (R63). -/
def State.curData (s : State) : Space := { mode := s.mode, kind := .data }

/-- `Translate` (R66): the identity where the platform's list says nothing else. -/
def State.translateAt (s : State) (sp : Space) (acc : Access) (a : Word) : Translation :=
  match s.cfg.translate.find? (fun e => e.space == sp && e.access == acc && e.addr == a) with
  | some e => e.result
  | none => .phys (a.setWidth 24)

/-- `MemMap.is_memory` (R64, R69). -/
def State.isMemory (s : State) (p : PhysAddr) : Bool :=
  !(s.cfg.holes.any fun h => decide (h.first.toNat ≤ p.toNat) && decide (p.toNat ≤ h.last.toNat))

/-! ### Accesses -/

/-- Why an access does not complete: a violation (R67) or memory that is not there (R69). -/
inductive AccessStop
  | violation (v : Violation)
  | noMemory
  deriving DecidableEq, Repr

/-- The answer of an access. -/
abbrev Acc (α : Type) := Except AccessStop α

/-- The physical address that one byte access reaches, or why it reaches none (R64). -/
def State.reach (s : State) (sp : Space) (acc : Access) (a : Word) : Acc PhysAddr :=
  match s.translateAt sp acc a with
  | .violation wp valid =>
    .error (.violation { space := sp, access := acc, addr := a, wp := wp, valid := valid })
  | .phys p => if s.isMemory p then .ok p else .error .noMemory

/-- `ByteRead` (R64). -/
def State.readByte (s : State) (sp : Space) (a : Word) : Acc Byte := do
  let p ← s.reach sp .read a
  return s.mem.get p

/-- `ByteWrite` (R64). -/
def State.writeByte (s : State) (sp : Space) (a : Word) (b : Byte) : Acc State := do
  let p ← s.reach sp .write a
  return s.putByte p b

/-- `MemReadS(space, addr, 2)` (R64): low byte first, the high byte at the next address modulo 2^16 (R61, R70). -/
def State.readWord (s : State) (sp : Space) (a : Word) : Acc Word := do
  let lo ← s.readByte sp a
  let hi ← s.readByte sp (a + 1)
  return joinBytes hi lo

/-- The check of `MemWriteS(space, addr, 2, v)` that an address translates for writing (R64). -/
def State.checkWrite (s : State) (sp : Space) (a : Word) : Acc Unit :=
  match s.translateAt sp .write a with
  | .violation wp valid =>
    .error (.violation { space := sp, access := .write, addr := a, wp := wp, valid := valid })
  | .phys _ => .ok ()

/-- `MemWriteS(space, addr, 2, v)` (R64): both bytes or neither, low byte at `a` (R70). -/
def State.writeWord (s : State) (sp : Space) (a : Word) (v : Word) : Acc State := do
  s.checkWrite sp a
  s.checkWrite sp (a + 1)
  let t ← s.writeByte sp a (loByte v)
  t.writeByte sp (a + 1) (hiByte v)

end Sys2Proof.Machine
end

