-- ==== Sys2Proof/Machine/Ops.lean ====
section
/-! DEFINITION. The named operations over the state: registers and their banks, unconstrained values, the end of an
instruction, taking a trap, the stack push and the input transaction. -/

namespace Sys2Proof.Machine

/-! ### Registers (10_state.md R30 to R34) -/

/-- The accumulator and flags in use (R32). -/
def State.af (s : State) : AF := if s.afSel then s.bankAF1 else s.bankAF0

/-- The accumulator and flags not in use: AF' (R32). -/
def State.afAlt (s : State) : AF := if s.afSel then s.bankAF0 else s.bankAF1

/-- The byte/word registers in use (R32). -/
def State.gp (s : State) : GP := if s.rfSel then s.bankGP1 else s.bankGP0

/-- The byte/word registers not in use: BC', DE', HL' (R32). -/
def State.gpAlt (s : State) : GP := if s.rfSel then s.bankGP0 else s.bankGP1

/-- The accumulator and flags in use, replaced. -/
def State.setAF (s : State) (x : AF) : State :=
  { s with bankAF0 := if s.afSel then s.bankAF0 else x, bankAF1 := if s.afSel then x else s.bankAF1 }

/-- The byte/word registers in use, replaced. -/
def State.setGP (s : State) (x : GP) : State :=
  { s with bankGP0 := if s.rfSel then s.bankGP0 else x, bankGP1 := if s.rfSel then x else s.bankGP1 }

/-- A. -/
def State.a (s : State) : Byte := s.af.a

/-- F. -/
def State.f (s : State) : Flags := s.af.f

/-- BC. -/
def State.bc (s : State) : Word := s.gp.bc

/-- DE. -/
def State.de (s : State) : Word := s.gp.de

/-- HL. -/
def State.hl (s : State) : Word := s.gp.hl

/-- `A <- v`. -/
def State.setA (s : State) (v : Byte) : State := s.setAF { s.af with a := v }

/-- `F <- f`, all eight bits. -/
def State.setF (s : State) (f : Flags) : State := s.setAF { s.af with f := f }

/-- `BC <- v`. -/
def State.setBC (s : State) (v : Word) : State := s.setGP { s.gp with bc := v }

/-- `DE <- v`. -/
def State.setDE (s : State) (v : Word) : State := s.setGP { s.gp with de := v }

/-- `HL <- v`. -/
def State.setHL (s : State) (v : Word) : State := s.setGP { s.gp with hl := v }

/-- A word with its high-order byte replaced (R31: writing a half changes that half of the pair). -/
def setHigh (w : Word) (b : Byte) : Word := joinBytes b (loByte w)

/-- A word with its low-order byte replaced (R31). -/
def setLow (w : Word) (b : Byte) : Word := joinBytes (hiByte w) b

/-- `reg8[r]` (30_encoding.md R96). -/
def State.reg8 (s : State) : R8 → Byte
  | .b => hiByte s.bc
  | .c => loByte s.bc
  | .d => hiByte s.de
  | .e => loByte s.de
  | .h => hiByte s.hl
  | .l => loByte s.hl
  | .a => s.a

/-- `reg8[r] <- v` (R96). -/
def State.setReg8 (s : State) (r : R8) (v : Byte) : State :=
  match r with
  | .b => s.setBC (setHigh s.bc v)
  | .c => s.setBC (setLow s.bc v)
  | .d => s.setDE (setHigh s.de v)
  | .e => s.setDE (setLow s.de v)
  | .h => s.setHL (setHigh s.hl v)
  | .l => s.setHL (setLow s.hl v)
  | .a => s.setA v

/-- IX or IY (R33). -/
def State.xy (s : State) : XY → Word
  | .ix => s.ix
  | .iy => s.iy

/-- `IX <- v` or `IY <- v`. -/
def State.setXY (s : State) (q : XY) (v : Word) : State :=
  match q with
  | .ix => { s with ix := v }
  | .iy => { s with iy := v }

/-- IXH, IXL, IYH or IYL (R33, R97). -/
def State.half (s : State) (q : XY) : Half → Byte
  | .hi => hiByte (s.xy q)
  | .lo => loByte (s.xy q)

/-- Writing a half of an index register. -/
def State.setHalf (s : State) (q : XY) (h : Half) (v : Byte) : State :=
  match h with
  | .hi => s.setXY q (setHigh (s.xy q) v)
  | .lo => s.setXY q (setLow (s.xy q) v)

/-- `SP`: "the current Stack Pointer in use" (R34): SSP in system mode, USP in user mode. -/
def State.sp (s : State) : Word :=
  match s.mode with
  | .system => s.ssp
  | .user => s.usp

/-- `SP <- v` (R34). -/
def State.setSP (s : State) (v : Word) : State :=
  { s with ssp := if s.mode = .system then v else s.ssp, usp := if s.mode = .user then v else s.usp }

/-! ### Unconstrained values (00_scope.md R14: any1, any8, any16; log 5) -/

/-- The next unconstrained value. -/
def State.anyWord (s : State) : Word := Config.freeValue s.freeCount

/-- The state after one has been drawn. -/
def State.drawn (s : State) : State := { s with freeCount := s.freeCount + 1 }

/-- Writing flags: `g` gives the flags a rule writes and leaves the others alone; bits 5 and 3 become unconstrained
(R18). -/
def State.putFlags (s : State) (g : Flags → Flags) : State :=
  (s.setF { g s.f with b5 := s.anyWord.getLsbD 5, b3 := s.anyWord.getLsbD 3 }).drawn

/-! ### The end of an instruction -/

/-- `PCnext` (R16): the address after an instruction of `len` bytes, modulo 2^16. -/
def State.pcNext (s : State) (len : Nat) : Word := s.pc + BitVec.ofNat 16 len

/-- The instruction has completed and `pc <- target`; `ei_shadow <- 0` is its last action (48_cpu_control.md R301). -/
def State.jump (s : State) (target : Word) : State := { s with pc := target, eiShadow := false }

/-- The instruction has completed and `PC <- PCnext` (R16). -/
def State.advance (s : State) (len : Nat) : State := s.jump (s.pcNext len)

/-! ### Taking a trap (60_exceptions.md R331) -/

/-- The traps a meaning can raise. -/
inductive Trap
  | division (cause : DivisionCause)
  | access (v : Violation)
  | stackWarning
  | privileged
  | breakpointOnHalt
  | singleStep
  deriving DecidableEq, Repr

/-- The state as the trap found it, with a PC the spec leaves open (R331: "The value of PC in the faulted state is
specified only for (a) ... and (d)"). -/
def State.openPC (s : State) : State := { s.drawn with pc := s.anyWord }

/-- `raise T(info)` (R331): the run ends with the fault T and the state the rule has left. The spec describes no entry
into a handler (R333, D1). -/
def raise (t : Trap) (s : State) : Out :=
  match t with
  | .division cause => .fault (.divisionException cause s.openPC)
  | .access v => .fault (.accessViolation v { s with mmuLatch := Config.latchedPart v.addr })
  | .stackWarning => .fault (.systemStackOverflowWarning s)
  | .privileged => .fault (.privilegedInstruction s.openPC)
  | .breakpointOnHalt => .fault (.breakpointOnHalt s.openPC)
  | .singleStep => .fault .singleStep

/-- What an access that does not complete does to the instruction: the trap with the state `s` it is aborted to
(20_memory.md R67), or the refusal (R69). -/
def stop (e : AccessStop) (s : State) : Out :=
  match e with
  | .violation v => raise (.access v) s
  | .noMemory => .refused .noMemoryThere

/-- Goes on with the answer of an access, or stops with the state `s` the instruction is aborted to. -/
def settle {α : Type} (x : Acc α) (s : State) (k : α → Out) : Out :=
  match x with
  | .ok v => k v
  | .error e => stop e s

/-- `priv_check()` (48_cpu_control.md R300, 60_exceptions.md R340). -/
def privCheck (s : State) (k : Out) : Out := if s.mode = .user then raise .privileged s else k

/-- `io_priv_check()` (47_io.md R282). -/
def ioPrivCheck (s : State) (k : Out) : Out :=
  if s.mode = .user ∧ s.tcr.getLsbD s.cfg.tcrI = true then raise .privileged s else k

/-! ### The stack push (46_control.md R261) -/

/-- `StackWarn(sp, SLR)` (60_exceptions.md R338). -/
def State.stackWarns (s : State) (sp : Word) : Bool := s.cfg.stackWarn.contains (sp, s.slr)

/-- `pending_ssow` after a push that leaves the stack pointer at `sp` (R261). -/
def State.warns (s : State) (sp : Word) : Bool :=
  decide (s.mode = .system) && s.tcr.getLsbD s.cfg.tcrS && s.stackWarns sp

/-- `push16(v)` (R261): both bytes or neither, and SP moves only if the write succeeds. -/
def State.push16 (s : State) (v : Word) : Acc State := do
  let t ← s.writeWord s.curData (s.sp - 2) v
  return t.setSP (s.sp - 2)

/-! ### Input transactions (47_io.md R280, R281) -/

/-- `IOP ++ B ++ C`, and `IOP ++ A ++ n` (R280). -/
def State.ioAddr (s : State) (mid low : Byte) : IoAddr := s.iop ++ mid ++ low

/-- What the environment answers to the next transaction (R281). A byte transaction moves eight bits. -/
def State.ioValue (s : State) (addr : IoAddr) (w : IoWidth) : Word :=
  match w with
  | .byte => (loByte (Config.ioIn s.ioTrace.length addr .byte)).setWidth 16
  | .word => Config.ioIn s.ioTrace.length addr .word

/-- The state after the transaction: its event ends the trace (R281). -/
def State.ioDone (s : State) (addr : IoAddr) (w : IoWidth) : State :=
  { s with ioTrace := s.ioTrace ++ [{ addr := addr, width := w, value := s.ioValue addr w }] }

/-- Whether a word input is an external one on an 8-bit bus: `BUS16` false and I/O page not FE or FF (R283). -/
def State.wordInputExternal (s : State) : Bool := !s.cfg.bus16 && s.iop != 0xFE && s.iop != 0xFF

end Sys2Proof.Machine
end

