-- ==== Sys2Proof/Machine/Operands.lean ====
section
/-! DEFINITION. Every operand form of the spec: the decoded operands, the effective address, and `rd8`, `wr8`, `rd16`,
`wr16` (30_encoding.md R102 to R107). -/

namespace Sys2Proof.Machine

/-- The registers that hold the address in mode IR (R102). -/
inductive PtrReg
  | bc | de | hl | ix | iy
  deriving DecidableEq, Repr

/-- A decoded memory operand `m` (R102). -/
inductive MemOperand
  /-- IR. -/
  | ir (q : PtrReg)
  /-- DA. -/
  | da (addr : Word)
  /-- X. -/
  | x (base : XX) (dd : Word)
  /-- SX. -/
  | sx (q : XY) (d : Byte)
  /-- RA. -/
  | ra (disp : Word)
  /-- SR. -/
  | sr (dd : Word)
  /-- BX. -/
  | bx (pair : BX)
  deriving DecidableEq, Repr

/-- A byte operand that can be written: modes R and RX, or memory (R105). -/
inductive Loc8
  | reg (r : R8)
  | rx (q : XY) (h : Half)
  | mem (m : MemOperand)
  deriving DecidableEq, Repr

/-- A byte operand that can be read: those, and mode IM (R104). -/
inductive Src8
  | loc (l : Loc8)
  | imm (n : Byte)
  deriving DecidableEq, Repr

/-- The 16-bit register operands (R106). -/
inductive Reg16
  | bc | de | hl | sp | ix | iy
  deriving DecidableEq, Repr

/-- A word operand that can be written (R107). -/
inductive Loc16
  | reg (w : Reg16)
  | mem (m : MemOperand)
  deriving DecidableEq, Repr

/-- A word operand that can be read (R106). -/
inductive Src16
  | loc (l : Loc16)
  | imm (nn : Word)
  deriving DecidableEq, Repr

/-- The pointer of `LD A,(RR)` and `LD (RR),A`. -/
def ptrOfBD : BD → PtrReg
  | .bc => .bc
  | .de => .de

/-- IX or IY as the pointer of mode IR. -/
def ptrOfXY : XY → PtrReg
  | .ix => .ix
  | .iy => .iy

/-- IX or IY as a 16-bit register operand. -/
def reg16OfXY : XY → Reg16
  | .ix => .ix
  | .iy => .iy

/-- IX or IY as the base of mode X. -/
def xxOfXY : XY → XX
  | .ix => .ix
  | .iy => .iy

/-- `reg16[ww]` (R99). -/
def reg16OfRR : RR → Reg16
  | .bc => .bc
  | .de => .de
  | .hl => .hl
  | .sp => .sp

/-- `reg16[ww]` where code 10 names the destination `q` (R99). -/
def reg16OfRRX (q : XY) : RRX → Reg16
  | .bc => .bc
  | .de => .de
  | .self => reg16OfXY q
  | .sp => .sp

/-- The value of a 16-bit register operand. -/
def State.reg16 (s : State) : Reg16 → Word
  | .bc => s.bc
  | .de => s.de
  | .hl => s.hl
  | .sp => s.sp
  | .ix => s.ix
  | .iy => s.iy

/-- Writing a 16-bit register operand; `SP` is the stack pointer in use (10_state.md R34). -/
def State.setReg16 (s : State) (w : Reg16) (v : Word) : State :=
  match w with
  | .bc => s.setBC v
  | .de => s.setDE v
  | .hl => s.setHL v
  | .sp => s.setSP v
  | .ix => s.setXY .ix v
  | .iy => s.setXY .iy v

/-- The address in a pointer register. -/
def State.ptr (s : State) : PtrReg → Word
  | .bc => s.bc
  | .de => s.de
  | .hl => s.hl
  | .ix => s.ix
  | .iy => s.iy

/-- The base register of mode X. -/
def State.base (s : State) : XX → Word
  | .ix => s.ix
  | .iy => s.iy
  | .hl => s.hl

/-- The sum of a base-index pair, modulo 2^16. -/
def State.pairSum (s : State) : BX → Word
  | .hlIx => s.hl + s.ix
  | .hlIy => s.hl + s.iy
  | .ixIy => s.ix + s.iy

/-- `EA(m)` (R102, R103) for an instruction of `len` bytes: register values at the start of the instruction, sums
modulo 2^16, `PCnext` the base of mode RA. -/
def ea (len : Nat) (m : MemOperand) (s : State) : Word :=
  match m with
  | .ir q => s.ptr q
  | .da addr => addr
  | .x base dd => s.base base + dd
  | .sx q d => s.xy q + d.signExtend 16
  | .ra disp => s.pcNext len + disp
  | .sr dd => s.sp + dd
  | .bx pair => s.pairSum pair

/-- `space(m)` (R104): the program space for mode RA, the data space for every other mode. -/
def operandSpace (m : MemOperand) (s : State) : Space :=
  match m with
  | .ra _ => s.curProg
  | .ir _ => s.curData
  | .da _ => s.curData
  | .x _ _ => s.curData
  | .sx _ _ => s.curData
  | .sr _ => s.curData
  | .bx _ => s.curData

/-- `rd8` of an operand that can be written (R104). -/
def rdLoc8 (len : Nat) (l : Loc8) (s : State) : Acc Byte :=
  match l with
  | .reg r => .ok (s.reg8 r)
  | .rx q h => .ok (s.half q h)
  | .mem m => s.readByte (operandSpace m s) (ea len m s)

/-- `rd8(m)` (R104). -/
def rd8 (len : Nat) (x : Src8) (s : State) : Acc Byte :=
  match x with
  | .loc l => rdLoc8 len l s
  | .imm n => .ok n

/-- `wr8(m, v)` (R105). -/
def wr8 (len : Nat) (l : Loc8) (v : Byte) (s : State) : Acc State :=
  match l with
  | .reg r => .ok (s.setReg8 r v)
  | .rx q h => .ok (s.setHalf q h v)
  | .mem m => s.writeByte (operandSpace m s) (ea len m s) v

/-- `rd16` of an operand that can be written (R106). -/
def rdLoc16 (len : Nat) (l : Loc16) (s : State) : Acc Word :=
  match l with
  | .reg w => .ok (s.reg16 w)
  | .mem m => s.readWord (operandSpace m s) (ea len m s)

/-- `rd16(m)` (R106). -/
def rd16 (len : Nat) (x : Src16) (s : State) : Acc Word :=
  match x with
  | .loc l => rdLoc16 len l s
  | .imm nn => .ok nn

/-- `wr16(m, v)` (R107). -/
def wr16 (len : Nat) (l : Loc16) (v : Word) (s : State) : Acc State :=
  match l with
  | .reg w => .ok (s.setReg16 w v)
  | .mem m => s.writeWord (operandSpace m s) (ea len m s) v

end Sys2Proof.Machine
end

