-- ==== Sys2Proof/Machine/Arith8.lean ====
section
/-! DEFINITION. The 8-bit arithmetic and logic group (43_arith8.md R190 to R201). -/

namespace Sys2Proof.Machine

/-- ADC [A,]src (R191). -/
def adcA (len : Nat) (src : Src8) (s : State) : Out :=
  settle (rd8 len src s) s fun v =>
    .next (((s.setA (add8 s.a v s.f.c).res).putFlags (add8 s.a v s.f.c).all).advance len)

/-- ADD [A,]src (R192). -/
def addA (len : Nat) (src : Src8) (s : State) : Out :=
  settle (rd8 len src s) s fun v =>
    .next (((s.setA (add8 s.a v false).res).putFlags (add8 s.a v false).all).advance len)

/-- AND [A,]src (R193). -/
def andA (len : Nat) (src : Src8) (s : State) : Out :=
  settle (rd8 len src s) s fun v =>
    .next (((s.setA (s.a &&& v)).putFlags fun f =>
      { f with
        s := (s.a &&& v).getLsbD 7, z := decide (s.a &&& v = 0), h := true,
        pv := parityEven (s.a &&& v), n := false, c := false }).advance len)

/-- CP [A,]src: the result is discarded (R194). -/
def cpA (len : Nat) (src : Src8) (s : State) : Out :=
  settle (rd8 len src s) s fun v => .next ((s.putFlags (sub8 s.a v false).all).advance len)

/-- CPL (R195). -/
def complementA (len : Nat) (s : State) : Out :=
  .next (((s.setA (~~~s.a)).putFlags fun f => { f with h := true, n := true }).advance len)

/-- DAA: the byte a row of the table adds; refused where no row matches (R196, D11; log 22). -/
def decimalAdjust (len : Nat) (s : State) : Out :=
  match daaRow s.f s.a with
  | none => .refused .daaOutsideTable
  | some row =>
    .next (((s.setA (s.a + row.added)).putFlags fun f =>
      { f with
        s := (s.a + row.added).getLsbD 7, z := decide (s.a + row.added = 0),
        pv := parityEven (s.a + row.added), c := row.cAfter, h := row.hAfter }).advance len)

/-- The flags of an increment or decrement: all of a helper's but C (R197, R201). -/
def Alu.allButC {w : Nat} (x : Alu w) (f : Flags) : Flags :=
  { f with s := x.s, z := x.z, h := x.h, pv := x.v, n := x.n }

/-- DEC dst, byte (R197). -/
def dec8 (len : Nat) (dst : Loc8) (s : State) : Out :=
  settle (rdLoc8 len dst s) s fun v =>
  settle (wr8 len dst (sub8 v 1 false).res s) s fun t =>
    .next ((t.putFlags (sub8 v 1 false).allButC).advance len)

/-- INC dst, byte (R201). -/
def inc8 (len : Nat) (dst : Loc8) (s : State) : Out :=
  settle (rdLoc8 len dst s) s fun v =>
  settle (wr8 len dst (add8 v 1 false).res s) s fun t =>
    .next ((t.putFlags (add8 v 1 false).allButC).advance len)

/-- CASE 2 and CASE 3 of a division: the flags are written, the destination is not, then the trap (R198, R334). -/
def divisionTrap (cause : DivisionCause) (s : State) : Out :=
  raise (.division cause) (s.putFlags fun f =>
    { f with s := false, z := decide (cause = .zeroDivisor), pv := true })

/-- The flags of CASE 1 of a division. -/
def quotientFlags (neg zero : Bool) (f : Flags) : Flags := { f with s := neg, z := zero, pv := false }

/-- DIV [HL,]src: signed, truncated toward zero, the remainder with the sign of the dividend (R198). -/
def div8 (len : Nat) (src : Src8) (s : State) : Out :=
  settle (rd8 len src s) s fun v =>
    if v.toInt = 0 then divisionTrap .zeroDivisor s
    else
      let q := Int.tdiv s.hl.toInt v.toInt
      let r := Int.tmod s.hl.toInt v.toInt
      if q < -128 ∨ 127 < q then divisionTrap .overflow s
      else
        .next ((((s.setA (BitVec.ofInt 8 q)).setReg8 .l (BitVec.ofInt 8 r)).putFlags
          (quotientFlags (decide (q < 0)) (decide (q = 0)))).advance len)

/-- DIVU [HL,]src: unsigned (R199). -/
def divu8 (len : Nat) (src : Src8) (s : State) : Out :=
  settle (rd8 len src s) s fun v =>
    if v.toNat = 0 then divisionTrap .zeroDivisor s
    else
      let q := s.hl.toNat / v.toNat
      let r := s.hl.toNat % v.toNat
      if 256 ≤ q then divisionTrap .overflow s
      else
        .next ((((s.setA (BitVec.ofNat 8 q)).setReg8 .l (BitVec.ofNat 8 r)).putFlags
          (quotientFlags false (decide (q = 0)))).advance len)

/-- EXTS A: `HL <- sext_16(A)` (R200). -/
def extendA (len : Nat) (s : State) : Out := .next ((s.setHL (s.a.signExtend 16)).advance len)

/-! ### The meanings, in the table's order -/

/-- `ADC A,R` (R191). -/
def execAdcAR (r : R8) (s : State) : Out := adcA 1 (.loc (.reg r)) s

/-- `ADC A,RX` (R191). -/
def execAdcARx (xy : XY) (half : Half) (s : State) : Out := adcA 2 (.loc (.rx xy half)) s

/-- `ADC A,n` (R191). -/
def execAdcAN (n : Byte) (s : State) : Out := adcA 2 (.imm n) s

/-- `ADC A,(HL)` (R191). -/
def execAdcAHl (s : State) : Out := adcA 1 (.loc (.mem (.ir .hl))) s

/-- `ADC A,(addr)` (R191). -/
def execAdcADa (addr : Word) (s : State) : Out := adcA 4 (.loc (.mem (.da addr))) s

/-- `ADC A,(XX + dd)` (R191). -/
def execAdcAX (base : XX) (dd : Word) (s : State) : Out := adcA 4 (.loc (.mem (.x base dd))) s

/-- `ADC A,(XY + d)` (R191). -/
def execAdcASx (xy : XY) (d : Byte) (s : State) : Out := adcA 3 (.loc (.mem (.sx xy d))) s

/-- `ADC A,<addr>` (R191). -/
def execAdcARa (disp : Word) (s : State) : Out := adcA 4 (.loc (.mem (.ra disp))) s

/-- `ADC A,(SP + dd)` (R191). -/
def execAdcASr (dd : Word) (s : State) : Out := adcA 4 (.loc (.mem (.sr dd))) s

/-- `ADC A,(XXA + XXB)` (R191). -/
def execAdcABx (pair : BX) (s : State) : Out := adcA 2 (.loc (.mem (.bx pair))) s

/-- `ADD A,R` (R192). -/
def execAddAR (r : R8) (s : State) : Out := addA 1 (.loc (.reg r)) s

/-- `ADD A,RX` (R192). -/
def execAddARx (xy : XY) (half : Half) (s : State) : Out := addA 2 (.loc (.rx xy half)) s

/-- `ADD A,n` (R192). -/
def execAddAN (n : Byte) (s : State) : Out := addA 2 (.imm n) s

/-- `ADD A,(HL)` (R192). -/
def execAddAHl (s : State) : Out := addA 1 (.loc (.mem (.ir .hl))) s

/-- `ADD A,(addr)` (R192). -/
def execAddADa (addr : Word) (s : State) : Out := addA 4 (.loc (.mem (.da addr))) s

/-- `ADD A,(XX + dd)` (R192). -/
def execAddAX (base : XX) (dd : Word) (s : State) : Out := addA 4 (.loc (.mem (.x base dd))) s

/-- `ADD A,(XY + d)` (R192). -/
def execAddASx (xy : XY) (d : Byte) (s : State) : Out := addA 3 (.loc (.mem (.sx xy d))) s

/-- `ADD A,<addr>` (R192). -/
def execAddARa (disp : Word) (s : State) : Out := addA 4 (.loc (.mem (.ra disp))) s

/-- `ADD A,(SP + dd)` (R192). -/
def execAddASr (dd : Word) (s : State) : Out := addA 4 (.loc (.mem (.sr dd))) s

/-- `ADD A,(XXA + XXB)` (R192). -/
def execAddABx (pair : BX) (s : State) : Out := addA 2 (.loc (.mem (.bx pair))) s

/-- `AND A,R` (R193). -/
def execAndAR (r : R8) (s : State) : Out := andA 1 (.loc (.reg r)) s

/-- `AND A,RX` (R193). -/
def execAndARx (xy : XY) (half : Half) (s : State) : Out := andA 2 (.loc (.rx xy half)) s

/-- `AND A,n` (R193). -/
def execAndAN (n : Byte) (s : State) : Out := andA 2 (.imm n) s

/-- `AND A,(HL)` (R193). -/
def execAndAHl (s : State) : Out := andA 1 (.loc (.mem (.ir .hl))) s

/-- `AND A,(addr)` (R193). -/
def execAndADa (addr : Word) (s : State) : Out := andA 4 (.loc (.mem (.da addr))) s

/-- `AND A,(XX + dd)` (R193). -/
def execAndAX (base : XX) (dd : Word) (s : State) : Out := andA 4 (.loc (.mem (.x base dd))) s

/-- `AND A,(XY + d)` (R193). -/
def execAndASx (xy : XY) (d : Byte) (s : State) : Out := andA 3 (.loc (.mem (.sx xy d))) s

/-- `AND A,<addr>` (R193). -/
def execAndARa (disp : Word) (s : State) : Out := andA 4 (.loc (.mem (.ra disp))) s

/-- `AND A,(SP + dd)` (R193). -/
def execAndASr (dd : Word) (s : State) : Out := andA 4 (.loc (.mem (.sr dd))) s

/-- `AND A,(XXA + XXB)` (R193). -/
def execAndABx (pair : BX) (s : State) : Out := andA 2 (.loc (.mem (.bx pair))) s

/-- `CP A,R` (R194). -/
def execCpAR (r : R8) (s : State) : Out := cpA 1 (.loc (.reg r)) s

/-- `CP A,RX` (R194). -/
def execCpARx (xy : XY) (half : Half) (s : State) : Out := cpA 2 (.loc (.rx xy half)) s

/-- `CP A,n` (R194). -/
def execCpAN (n : Byte) (s : State) : Out := cpA 2 (.imm n) s

/-- `CP A,(HL)` (R194). -/
def execCpAHl (s : State) : Out := cpA 1 (.loc (.mem (.ir .hl))) s

/-- `CP A,(addr)` (R194). -/
def execCpADa (addr : Word) (s : State) : Out := cpA 4 (.loc (.mem (.da addr))) s

/-- `CP A,(XX + dd)` (R194). -/
def execCpAX (base : XX) (dd : Word) (s : State) : Out := cpA 4 (.loc (.mem (.x base dd))) s

/-- `CP A,(XY + d)` (R194). -/
def execCpASx (xy : XY) (d : Byte) (s : State) : Out := cpA 3 (.loc (.mem (.sx xy d))) s

/-- `CP A,<addr>` (R194). -/
def execCpARa (disp : Word) (s : State) : Out := cpA 4 (.loc (.mem (.ra disp))) s

/-- `CP A,(SP + dd)` (R194). -/
def execCpASr (dd : Word) (s : State) : Out := cpA 4 (.loc (.mem (.sr dd))) s

/-- `CP A,(XXA + XXB)` (R194). -/
def execCpABx (pair : BX) (s : State) : Out := cpA 2 (.loc (.mem (.bx pair))) s

/-- `CPL A` (R195). -/
def execCpl (s : State) : Out := complementA 1 s

/-- `DAA` (R196). -/
def execDaa (s : State) : Out := decimalAdjust 1 s

/-- `DEC R` (R197). -/
def execDecR (r : R8) (s : State) : Out := dec8 1 (.reg r) s

/-- `DEC RX` (R197). -/
def execDecRx (xy : XY) (half : Half) (s : State) : Out := dec8 2 (.rx xy half) s

/-- `DEC (HL)` (R197). -/
def execDecHl (s : State) : Out := dec8 1 (.mem (.ir .hl)) s

/-- `DEC (addr)` (R197). -/
def execDecDa (addr : Word) (s : State) : Out := dec8 4 (.mem (.da addr)) s

/-- `DEC (XX + dd)` (R197). -/
def execDecX (base : XX) (dd : Word) (s : State) : Out := dec8 4 (.mem (.x base dd)) s

/-- `DEC (XY + d)` (R197). -/
def execDecSx (xy : XY) (d : Byte) (s : State) : Out := dec8 3 (.mem (.sx xy d)) s

/-- `DEC <addr>` (R197). -/
def execDecRa (disp : Word) (s : State) : Out := dec8 4 (.mem (.ra disp)) s

/-- `DEC (SP + dd)` (R197). -/
def execDecSr (dd : Word) (s : State) : Out := dec8 4 (.mem (.sr dd)) s

/-- `DEC (XXA + XXB)` (R197). -/
def execDecBx (pair : BX) (s : State) : Out := dec8 2 (.mem (.bx pair)) s

/-- `DIV HL,R` (R198). -/
def execDivR (r : R8) (s : State) : Out := div8 2 (.loc (.reg r)) s

/-- `DIV HL,RX` (R198). -/
def execDivRx (xy : XY) (half : Half) (s : State) : Out := div8 3 (.loc (.rx xy half)) s

/-- `DIV HL,n` (R198). -/
def execDivN (n : Byte) (s : State) : Out := div8 4 (.imm n) s

/-- `DIV HL,(HL)` (R198). -/
def execDivHl (s : State) : Out := div8 2 (.loc (.mem (.ir .hl))) s

/-- `DIV HL,(addr)` (R198). -/
def execDivDa (addr : Word) (s : State) : Out := div8 5 (.loc (.mem (.da addr))) s

/-- `DIV HL,(XX + dd)` (R198). -/
def execDivX (base : XX) (dd : Word) (s : State) : Out := div8 5 (.loc (.mem (.x base dd))) s

/-- `DIV HL,(XY + d)` (R198). -/
def execDivSx (xy : XY) (d : Byte) (s : State) : Out := div8 4 (.loc (.mem (.sx xy d))) s

/-- `DIV HL,<addr>` (R198). -/
def execDivRa (disp : Word) (s : State) : Out := div8 5 (.loc (.mem (.ra disp))) s

/-- `DIV HL,(SP + dd)` (R198). -/
def execDivSr (dd : Word) (s : State) : Out := div8 5 (.loc (.mem (.sr dd))) s

/-- `DIV HL,(XXA + XXB)` (R198). -/
def execDivBx (pair : BX) (s : State) : Out := div8 3 (.loc (.mem (.bx pair))) s

/-- `DIVU HL,R` (R199). -/
def execDivuR (r : R8) (s : State) : Out := divu8 2 (.loc (.reg r)) s

/-- `DIVU HL,RX` (R199). -/
def execDivuRx (xy : XY) (half : Half) (s : State) : Out := divu8 3 (.loc (.rx xy half)) s

/-- `DIVU HL,n` (R199). -/
def execDivuN (n : Byte) (s : State) : Out := divu8 4 (.imm n) s

/-- `DIVU HL,(HL)` (R199). -/
def execDivuHl (s : State) : Out := divu8 2 (.loc (.mem (.ir .hl))) s

/-- `DIVU HL,(addr)` (R199). -/
def execDivuDa (addr : Word) (s : State) : Out := divu8 5 (.loc (.mem (.da addr))) s

/-- `DIVU HL,(XX + dd)` (R199). -/
def execDivuX (base : XX) (dd : Word) (s : State) : Out := divu8 5 (.loc (.mem (.x base dd))) s

/-- `DIVU HL,(XY + d)` (R199). -/
def execDivuSx (xy : XY) (d : Byte) (s : State) : Out := divu8 4 (.loc (.mem (.sx xy d))) s

/-- `DIVU HL,<addr>` (R199). -/
def execDivuRa (disp : Word) (s : State) : Out := divu8 5 (.loc (.mem (.ra disp))) s

/-- `DIVU HL,(SP + dd)` (R199). -/
def execDivuSr (dd : Word) (s : State) : Out := divu8 5 (.loc (.mem (.sr dd))) s

/-- `DIVU HL,(XXA + XXB)` (R199). -/
def execDivuBx (pair : BX) (s : State) : Out := divu8 3 (.loc (.mem (.bx pair))) s

/-- `EXTS A` (R200). -/
def execExtsA (s : State) : Out := extendA 2 s

/-- `INC R` (R201). -/
def execIncR (r : R8) (s : State) : Out := inc8 1 (.reg r) s

/-- `INC RX` (R201). -/
def execIncRx (xy : XY) (half : Half) (s : State) : Out := inc8 2 (.rx xy half) s

/-- `INC (HL)` (R201). -/
def execIncHl (s : State) : Out := inc8 1 (.mem (.ir .hl)) s

/-- `INC (addr)` (R201). -/
def execIncDa (addr : Word) (s : State) : Out := inc8 4 (.mem (.da addr)) s

/-- `INC (XX + dd)` (R201). -/
def execIncX (base : XX) (dd : Word) (s : State) : Out := inc8 4 (.mem (.x base dd)) s

/-- `INC (XY + d)` (R201). -/
def execIncSx (xy : XY) (d : Byte) (s : State) : Out := inc8 3 (.mem (.sx xy d)) s

/-- `INC <addr>` (R201). -/
def execIncRa (disp : Word) (s : State) : Out := inc8 4 (.mem (.ra disp)) s

/-- `INC (SP + dd)` (R201). -/
def execIncSr (dd : Word) (s : State) : Out := inc8 4 (.mem (.sr dd)) s

/-- `INC (XXA + XXB)` (R201). -/
def execIncBx (pair : BX) (s : State) : Out := inc8 2 (.mem (.bx pair)) s

end Sys2Proof.Machine
end

