-- ==== Sys2Proof/Machine/Arith16.lean ====
section
/-! DEFINITION. The 16-bit arithmetic group (44_arith16.md R220 to R230). -/

namespace Sys2Proof.Machine

/-- ADC dst,src, word (R221). -/
def adcWord (len : Nat) (dst src : Reg16) (s : State) : Out :=
  let x := add16 (s.reg16 dst) (s.reg16 src) s.f.c
  .next (((s.setReg16 dst x.res).putFlags x.all).advance len)

/-- ADD dst,src, word: S, Z and P/V are not written (R222). -/
def addWord (len : Nat) (dst src : Reg16) (s : State) : Out :=
  let x := add16 (s.reg16 dst) (s.reg16 src) false
  .next (((s.setReg16 dst x.res).putFlags fun f => { f with h := x.h, n := false, c := x.c }).advance len)

/-- ADD dst,A: the accumulator sign-extended to 16 bits (R223). -/
def addAccumulator (len : Nat) (dst : Reg16) (s : State) : Out :=
  let x := add16 (s.reg16 dst) (s.a.signExtend 16) false
  .next (((s.setReg16 dst x.res).putFlags x.all).advance len)

/-- ADDW [HL,]src (R224). -/
def addw (len : Nat) (src : Src16) (s : State) : Out :=
  settle (rd16 len src s) s fun v =>
    .next (((s.setHL (add16 s.hl v false).res).putFlags (add16 s.hl v false).all).advance len)

/-- CPW [HL,]src: the result is discarded (R225). -/
def cpw (len : Nat) (src : Src16) (s : State) : Out :=
  settle (rd16 len src s) s fun v => .next ((s.putFlags (sub16 s.hl v false).all).advance len)

/-- DEC[W] dst: no flag (R226). -/
def decw (len : Nat) (dst : Loc16) (s : State) : Out :=
  settle (rdLoc16 len dst s) s fun v =>
  settle (wr16 len dst (v - 1) s) s fun t => .next (t.advance len)

/-- INC[W] dst: no flag (R230). -/
def incw (len : Nat) (dst : Loc16) (s : State) : Out :=
  settle (rdLoc16 len dst s) s fun v =>
  settle (wr16 len dst (v + 1) s) s fun t => .next (t.advance len)

/-- `DE ++ HL`, the 32-bit dividend (R227, R228). -/
def State.dehl (s : State) : BitVec 32 := s.de ++ s.hl

/-- DIVW [DEHL,]src: signed (R227). -/
def divw (len : Nat) (src : Src16) (s : State) : Out :=
  settle (rd16 len src s) s fun v =>
    if v.toInt = 0 then divisionTrap .zeroDivisor s
    else
      let q := Int.tdiv s.dehl.toInt v.toInt
      let r := Int.tmod s.dehl.toInt v.toInt
      if q < -32768 ∨ 32767 < q then divisionTrap .overflow s
      else
        .next ((((s.setHL (BitVec.ofInt 16 q)).setDE (BitVec.ofInt 16 r)).putFlags
          (quotientFlags (decide (q < 0)) (decide (q = 0)))).advance len)

/-- DIVUW [DEHL,]src: unsigned (R228). -/
def divuw (len : Nat) (src : Src16) (s : State) : Out :=
  settle (rd16 len src s) s fun v =>
    if v.toNat = 0 then divisionTrap .zeroDivisor s
    else
      let q := s.dehl.toNat / v.toNat
      let r := s.dehl.toNat % v.toNat
      if 65536 ≤ q then divisionTrap .overflow s
      else
        .next ((((s.setHL (BitVec.ofNat 16 q)).setDE (BitVec.ofNat 16 r)).putFlags
          (quotientFlags false (decide (q = 0)))).advance len)

/-- EXTS HL: DE takes the sign of HL (R229). -/
def extendHL (len : Nat) (s : State) : Out :=
  .next ((s.setDE (if s.hl.getLsbD 15 then 0xFFFF else 0)).advance len)

/-! ### The meanings, in the table's order -/

/-- `ADC HL,RR` (R221). -/
def execAdcHlRr (w : RR) (s : State) : Out := adcWord 2 .hl (reg16OfRR w) s

/-- `ADC XY,RR` (R221). -/
def execAdcXyRr (xy : XY) (w : RRX) (s : State) : Out := adcWord 3 (reg16OfXY xy) (reg16OfRRX xy w) s

/-- `ADD HL,RR` (R222). -/
def execAddHlRr (w : RR) (s : State) : Out := addWord 1 .hl (reg16OfRR w) s

/-- `ADD XY,RR` (R222). -/
def execAddXyRr (xy : XY) (w : RRX) (s : State) : Out := addWord 2 (reg16OfXY xy) (reg16OfRRX xy w) s

/-- `ADD HL,A` (R223). -/
def execAddHlA (s : State) : Out := addAccumulator 2 .hl s

/-- `ADD XY,A` (R223). -/
def execAddXyA (xy : XY) (s : State) : Out := addAccumulator 3 (reg16OfXY xy) s

/-- `ADDW HL,RR` (R224). -/
def execAddwRr (w : RR) (s : State) : Out := addw 2 (.loc (.reg (reg16OfRR w))) s

/-- `ADDW HL,XY` (R224). -/
def execAddwXy (xy : XY) (s : State) : Out := addw 3 (.loc (.reg (reg16OfXY xy))) s

/-- `ADDW HL,nn` (R224). -/
def execAddwN (nn : Word) (s : State) : Out := addw 5 (.imm nn) s

/-- `ADDW HL,(addr)` (R224). -/
def execAddwDa (addr : Word) (s : State) : Out := addw 5 (.loc (.mem (.da addr))) s

/-- `ADDW HL,(XY + dd)` (R224). -/
def execAddwX (xy : XY) (dd : Word) (s : State) : Out := addw 5 (.loc (.mem (.x (xxOfXY xy) dd))) s

/-- `ADDW HL,<addr>` (R224). -/
def execAddwRa (disp : Word) (s : State) : Out := addw 5 (.loc (.mem (.ra disp))) s

/-- `ADDW HL,(HL)` (R224). -/
def execAddwHl (s : State) : Out := addw 3 (.loc (.mem (.ir .hl))) s

/-- `CPW HL,RR` (R225). -/
def execCpwRr (w : RR) (s : State) : Out := cpw 2 (.loc (.reg (reg16OfRR w))) s

/-- `CPW HL,XY` (R225). -/
def execCpwXy (xy : XY) (s : State) : Out := cpw 3 (.loc (.reg (reg16OfXY xy))) s

/-- `CPW HL,nn` (R225). -/
def execCpwN (nn : Word) (s : State) : Out := cpw 5 (.imm nn) s

/-- `CPW HL,(addr)` (R225). -/
def execCpwDa (addr : Word) (s : State) : Out := cpw 5 (.loc (.mem (.da addr))) s

/-- `CPW HL,(XY + dd)` (R225). -/
def execCpwX (xy : XY) (dd : Word) (s : State) : Out := cpw 5 (.loc (.mem (.x (xxOfXY xy) dd))) s

/-- `CPW HL,<addr>` (R225). -/
def execCpwRa (disp : Word) (s : State) : Out := cpw 5 (.loc (.mem (.ra disp))) s

/-- `CPW HL,(HL)` (R225). -/
def execCpwHl (s : State) : Out := cpw 3 (.loc (.mem (.ir .hl))) s

/-- `DECW RR` (R226). -/
def execDecwRr (w : RR) (s : State) : Out := decw 1 (.reg (reg16OfRR w)) s

/-- `DECW XY` (R226). -/
def execDecwXy (xy : XY) (s : State) : Out := decw 2 (.reg (reg16OfXY xy)) s

/-- `DECW (HL)` (R226). -/
def execDecwHl (s : State) : Out := decw 2 (.mem (.ir .hl)) s

/-- `DECW (addr)` (R226). -/
def execDecwDa (addr : Word) (s : State) : Out := decw 4 (.mem (.da addr)) s

/-- `DECW (XY + dd)` (R226). -/
def execDecwX (xy : XY) (dd : Word) (s : State) : Out := decw 4 (.mem (.x (xxOfXY xy) dd)) s

/-- `DECW <addr>` (R226). -/
def execDecwRa (disp : Word) (s : State) : Out := decw 4 (.mem (.ra disp)) s

/-- `DIVW DEHL,RR` (R227). -/
def execDivwRr (w : RR) (s : State) : Out := divw 2 (.loc (.reg (reg16OfRR w))) s

/-- `DIVW DEHL,XY` (R227). -/
def execDivwXy (xy : XY) (s : State) : Out := divw 3 (.loc (.reg (reg16OfXY xy))) s

/-- `DIVW DEHL,nn` (R227). -/
def execDivwN (nn : Word) (s : State) : Out := divw 5 (.imm nn) s

/-- `DIVW DEHL,(addr)` (R227). -/
def execDivwDa (addr : Word) (s : State) : Out := divw 5 (.loc (.mem (.da addr))) s

/-- `DIVW DEHL,(XY + dd)` (R227). -/
def execDivwX (xy : XY) (dd : Word) (s : State) : Out := divw 5 (.loc (.mem (.x (xxOfXY xy) dd))) s

/-- `DIVW DEHL,<addr>` (R227). -/
def execDivwRa (disp : Word) (s : State) : Out := divw 5 (.loc (.mem (.ra disp))) s

/-- `DIVW DEHL,(HL)` (R227). -/
def execDivwHl (s : State) : Out := divw 3 (.loc (.mem (.ir .hl))) s

/-- `DIVUW DEHL,RR` (R228). -/
def execDivuwRr (w : RR) (s : State) : Out := divuw 2 (.loc (.reg (reg16OfRR w))) s

/-- `DIVUW DEHL,XY` (R228). -/
def execDivuwXy (xy : XY) (s : State) : Out := divuw 3 (.loc (.reg (reg16OfXY xy))) s

/-- `DIVUW DEHL,nn` (R228). -/
def execDivuwN (nn : Word) (s : State) : Out := divuw 5 (.imm nn) s

/-- `DIVUW DEHL,(addr)` (R228). -/
def execDivuwDa (addr : Word) (s : State) : Out := divuw 5 (.loc (.mem (.da addr))) s

/-- `DIVUW DEHL,(XY + dd)` (R228). -/
def execDivuwX (xy : XY) (dd : Word) (s : State) : Out := divuw 5 (.loc (.mem (.x (xxOfXY xy) dd))) s

/-- `DIVUW DEHL,<addr>` (R228). -/
def execDivuwRa (disp : Word) (s : State) : Out := divuw 5 (.loc (.mem (.ra disp))) s

/-- `DIVUW DEHL,(HL)` (R228). -/
def execDivuwHl (s : State) : Out := divuw 3 (.loc (.mem (.ir .hl))) s

/-- `EXTS HL` (R229). -/
def execExtsHl (s : State) : Out := extendHL 2 s

/-- `INCW RR` (R230). -/
def execIncwRr (w : RR) (s : State) : Out := incw 1 (.reg (reg16OfRR w)) s

/-- `INCW XY` (R230). -/
def execIncwXy (xy : XY) (s : State) : Out := incw 2 (.reg (reg16OfXY xy)) s

/-- `INCW (HL)` (R230). -/
def execIncwHl (s : State) : Out := incw 2 (.mem (.ir .hl)) s

/-- `INCW (addr)` (R230). -/
def execIncwDa (addr : Word) (s : State) : Out := incw 4 (.mem (.da addr)) s

/-- `INCW (XY + dd)` (R230). -/
def execIncwX (xy : XY) (dd : Word) (s : State) : Out := incw 4 (.mem (.x (xxOfXY xy) dd)) s

/-- `INCW <addr>` (R230). -/
def execIncwRa (disp : Word) (s : State) : Out := incw 4 (.mem (.ra disp)) s

end Sys2Proof.Machine
end

