-- ==== Sys2Proof/Machine/Bit.lean ====
section
/-! DEFINITION. The bit manipulation group (45_bit.md R250, R251). -/

namespace Sys2Proof.Machine

/-- BIT b,dst: Z is the complement of the tested bit; the operand is only read (R251). -/
def bitTest (len : Nat) (b : BitVec 3) (dst : Loc8) (s : State) : Out :=
  settle (rdLoc8 len dst s) s fun v =>
    .next ((s.putFlags fun f => { f with z := !v.getLsbD b.toNat, h := true, n := false }).advance len)

/-! ### The meanings, in the table's order -/

/-- `BIT b,R` (R251). -/
def execBitR (bit : BitVec 3) (r : R8) (s : State) : Out := bitTest 2 bit (.reg r) s

/-- `BIT b,(HL)` (R251). -/
def execBitHl (bit : BitVec 3) (s : State) : Out := bitTest 2 bit (.mem (.ir .hl)) s

/-- `BIT b,(XY + d)` (R251). -/
def execBitSx (xy : XY) (d : Byte) (bit : BitVec 3) (s : State) : Out := bitTest 4 bit (.mem (.sx xy d)) s

end Sys2Proof.Machine
end

