-- ==== Sys2Proof/Machine/Block.lean ====
section
/-! DEFINITION. The block transfer and search group (42_block.md R170 to R179): one iteration per step (R178). -/

namespace Sys2Proof.Machine

/-- Whether a block instruction's pointers go up or down. -/
inductive Dir
  | inc
  | dec
  deriving DecidableEq, Repr

/-- A pointer moved by `n`, modulo 2^16. -/
def Dir.move (d : Dir) (p n : Word) : Word :=
  match d with
  | .inc => p + n
  | .dec => p - n

/-- The end of an iteration: `PC <- PCinstr` while the instruction repeats, `PC <- PCnext` when it has ended (R178). An
iteration that is not the last does not complete the instruction, so `ei_shadow` stays (log 16: DEDUCED). -/
def iterationEnd (len : Nat) (again : Bool) (s : State) : State := if again then s else s.advance len

/-- The registers and flags after a transfer (R171, R172). -/
def afterTransfer (d : Dir) (t : State) : State :=
  (((t.setDE (d.move t.de 1)).setHL (d.move t.hl 1)).setBC (t.bc - 1)).putFlags fun f =>
    { f with h := false, n := false, pv := decide (t.bc - 1 ≠ 0) }

/-- One iteration of LDI, LDD, LDIR, LDDR: the read precedes the write (R171 to R174). -/
def blockLoad (d : Dir) (rep : Bool) (s : State) : Out :=
  settle (s.readByte s.curData s.hl) s fun v =>
  settle (s.writeByte s.curData s.de v) s fun t =>
    .next (iterationEnd 2 (rep && decide (s.bc - 1 ≠ 0)) (afterTransfer d t))

/-- The registers and flags after a comparison with the byte `v` (R175, R176). -/
def afterCompare (d : Dir) (v : Byte) (s : State) : State :=
  ((s.setHL (d.move s.hl 1)).setBC (s.bc - 1)).putFlags fun f =>
    { f with
      s := (sub8 s.a v false).s, z := (sub8 s.a v false).z, h := (sub8 s.a v false).h,
      n := true, pv := decide (s.bc - 1 ≠ 0) }

/-- One iteration of CPI, CPD, CPIR, CPDR; the repeating forms end on a match or when BC reaches 0 (R175 to R179). -/
def blockCompare (d : Dir) (rep : Bool) (s : State) : Out :=
  settle (s.readByte s.curData s.hl) s fun v =>
    .next (iterationEnd 2 (rep && decide (s.bc - 1 ≠ 0) && !(sub8 s.a v false).z) (afterCompare d v s))

/-! ### The meanings, in the table's order -/

/-- `LDI` (R171). -/
def execLdi (s : State) : Out := blockLoad .inc false s

/-- `LDD` (R172). -/
def execLdd (s : State) : Out := blockLoad .dec false s

/-- `LDIR` (R173). -/
def execLdir (s : State) : Out := blockLoad .inc true s

/-- `LDDR` (R174). -/
def execLddr (s : State) : Out := blockLoad .dec true s

/-- `CPI` (R175). -/
def execCpi (s : State) : Out := blockCompare .inc false s

/-- `CPD` (R176). -/
def execCpd (s : State) : Out := blockCompare .dec false s

/-- `CPIR` (R177). -/
def execCpir (s : State) : Out := blockCompare .inc true s

/-- `CPDR` (R179). -/
def execCpdr (s : State) : Out := blockCompare .dec true s

end Sys2Proof.Machine
end

