-- ==== Sys2Proof/Machine/Control.lean ====
section
/-! DEFINITION. The program control group (46_control.md R260 to R268). -/

namespace Sys2Proof.Machine

/-- The target of a CALL or JP: the operand's ADDRESS, no memory operand is read (R268). -/
def target (len : Nat) (m : MemOperand) (s : State) : Word := ea len m s

/-- The target of a one-byte displacement: `PCnext + sext_16(pppppppp)` (R268). -/
def shortTarget (len : Nat) (disp : Byte) (s : State) : Word := s.pcNext len + disp.signExtend 16

/-- CALL that is taken: the push of `PCnext`, then the jump, then the stack warning if the push made it pending
(R260, R261, 60_exceptions.md R338). -/
def callTaken (len : Nat) (m : MemOperand) (s : State) : Out :=
  settle (s.push16 (s.pcNext len)) s fun t =>
    if s.warns (s.sp - 2) then raise .stackWarning (t.jump (target len m s))
    else .next (t.jump (target len m s))

/-- CALL [cc,]dst (R260). -/
def call (len : Nat) (cond : Bool) (m : MemOperand) (s : State) : Out :=
  if cond then callTaken len m s else .next (s.advance len)

/-- JP [cc,]dst (R264). -/
def jump (len : Nat) (cond : Bool) (m : MemOperand) (s : State) : Out :=
  .next (if cond then s.jump (target len m s) else s.advance len)

/-- JR [cc,]dst, JAF and JAR (R265, R266, R267). -/
def jumpShort (len : Nat) (cond : Bool) (disp : Byte) (s : State) : Out :=
  .next (if cond then s.jump (shortTarget len disp s) else s.advance len)

/-- DJNZ dst: B counts down, no flag (R263). -/
def decrementJump (len : Nat) (disp : Byte) (s : State) : Out :=
  let t := s.setReg8 .b (s.reg8 .b - 1)
  .next (if s.reg8 .b - 1 ≠ 0 then t.jump (shortTarget len disp s) else t.advance len)

/-! ### The meanings, in the table's order -/

/-- `CALL cc,(HL)` (R260). -/
def execCallCcHl (cc : CC) (s : State) : Out := call 2 (condHolds cc s.f) (.ir .hl) s

/-- `CALL (HL)` (R260). -/
def execCallHl (s : State) : Out := call 2 true (.ir .hl) s

/-- `CALL cc,addr` (R260). -/
def execCallCc (cc : CC) (addr : Word) (s : State) : Out := call 3 (condHolds cc s.f) (.da addr) s

/-- `CALL addr` (R260). -/
def execCallDa (addr : Word) (s : State) : Out := call 3 true (.da addr) s

/-- `CALL cc,<addr>` (R260). -/
def execCallCcRa (cc : CC) (disp : Word) (s : State) : Out := call 4 (condHolds cc s.f) (.ra disp) s

/-- `CALL <addr>` (R260). -/
def execCallRa (disp : Word) (s : State) : Out := call 4 true (.ra disp) s

/-- `CCF` (R262). -/
def execCcf (s : State) : Out := .next ((s.putFlags fun f => { f with h := f.c, n := false, c := !f.c }).advance 1)

/-- `DJNZ addr` (R263). -/
def execDjnz (disp : Byte) (s : State) : Out := decrementJump 2 disp s

/-- `JP cc,(HL)` (R264). -/
def execJpCcHl (cc : CC) (s : State) : Out := jump 2 (condHolds cc s.f) (.ir .hl) s

/-- `JP (HL)` (R264). -/
def execJpHl (s : State) : Out := jump 1 true (.ir .hl) s

/-- `JP (XY)` (R264). -/
def execJpXy (xy : XY) (s : State) : Out := jump 2 true (.ir (ptrOfXY xy)) s

/-- `JP cc,addr` (R264). -/
def execJpCc (cc : CC) (addr : Word) (s : State) : Out := jump 3 (condHolds cc s.f) (.da addr) s

/-- `JP addr` (R264). -/
def execJpDa (addr : Word) (s : State) : Out := jump 3 true (.da addr) s

/-- `JP cc,<addr>` (R264). -/
def execJpCcRa (cc : CC) (disp : Word) (s : State) : Out := jump 4 (condHolds cc s.f) (.ra disp) s

/-- `JP <addr>` (R264). -/
def execJpRa (disp : Word) (s : State) : Out := jump 4 true (.ra disp) s

/-- `JR cc,addr` (R265). -/
def execJrCc (jcc : JCC) (disp : Byte) (s : State) : Out := jumpShort 2 (jrHolds jcc s.f) disp s

/-- `JR addr` (R265). -/
def execJr (disp : Byte) (s : State) : Out := jumpShort 2 true disp s

/-- `JAF addr` (R266). -/
def execJaf (disp : Byte) (s : State) : Out := jumpShort 3 s.afSel disp s

/-- `JAR addr` (R267). -/
def execJar (disp : Byte) (s : State) : Out := jumpShort 3 s.rfSel disp s

end Sys2Proof.Machine
end

