-- ==== Sys2Proof/Machine/CpuControl.lean ====
section
/-! DEFINITION. The CPU control group (48_cpu_control.md R300 to R311). Every instruction of it is privileged. -/

namespace Sys2Proof.Machine

/-- MSR with the interrupt enables of the mask set: bits 6:0 only (R301). -/
def enableBits (msr : Word) (mask : Byte) : Word := msr ||| (mask &&& 0x7F).setWidth 16

/-- MSR with the interrupt enables of the mask cleared: bits 6:0 only (R302). -/
def disableBits (msr : Word) (mask : Byte) : Word := msr &&& ~~~((mask &&& 0x7F).setWidth 16)

/-- The effect of EI after its checks: `ei_shadow <- 1` (R301). -/
def enabled (len : Nat) (mask : Byte) (s : State) : State :=
  { s.advance len with msr := enableBits s.msr mask, eiShadow := true }

/-- The effect of DI after its checks (R302). -/
def disabled (len : Nat) (mask : Byte) (s : State) : State :=
  { s.advance len with msr := disableBits s.msr mask }

/-- EI and EI mask: the privilege check comes before the refusal of mask bit 7 (R300, R301). -/
def enableInterrupts (len : Nat) (mask : Byte) (s : State) : Out :=
  privCheck s <| if mask.getLsbD 7 then .refused .maskBitSeven else .next (enabled len mask s)

/-- DI and DI mask (R300, R302). -/
def disableInterrupts (len : Nat) (mask : Byte) (s : State) : Out :=
  privCheck s <| if mask.getLsbD 7 then .refused .maskBitSeven else .next (disabled len mask s)

/-- HALT (R303). -/
def haltCpu (len : Nat) (s : State) : Out :=
  privCheck s <|
    if s.msr.getLsbD s.cfg.msrBH then raise .breakpointOnHalt s
    else .next { s.advance len with halted := true }

/-- The Interrupt Status register with mode `p` in bits 9:8 (R304, R46). -/
def withInterruptMode (isr : Word) (p : BitVec 2) : Word := (isr &&& 0xFCFF) ||| (p.setWidth 16 <<< 8)

/-- IM p (R304). -/
def setInterruptMode (len : Nat) (p : BitVec 2) (s : State) : Out :=
  privCheck s <| .next { s.advance len with isr := withInterruptMode s.isr p }

/-- LD I,A (R305). -/
def loadI (len : Nat) (s : State) : Out := privCheck s <| .next { s.advance len with i := s.a }

/-- LD R,A (R306). -/
def loadR (len : Nat) (s : State) : Out := privCheck s <| .next { s.advance len with r := s.a }

/-- LD A,I and LD A,R: P/V is the Interrupt A enable bit (R307, R308). -/
def readSpecial (len : Nat) (v : Byte) (s : State) : Out :=
  privCheck s <|
    .next (((s.setA v).putFlags fun f =>
      { f with
        s := v.getLsbD 7, z := decide (v = 0), h := false,
        pv := s.msr.getLsbD s.cfg.msrIEA, n := false }).advance len)

/-- The control registers of 10_state.md R44, apart from USP. -/
inductive ControlReg
  | msr | isr | itvtp | iop | bti | btc | slr | tcr | ccr | lar
  deriving DecidableEq, Repr

/-- The control register at the address in C (R309). -/
def controlReg? (c : Byte) : Option ControlReg :=
  if c = 0x00 then some .msr
  else if c = 0x02 then some .btc
  else if c = 0x04 then some .slr
  else if c = 0x06 then some .itvtp
  else if c = 0x08 then some .iop
  else if c = 0x10 then some .tcr
  else if c = 0x12 then some .ccr
  else if c = 0x14 then some .lar
  else if c = 0x16 then some .isr
  else if c = 0xFF then some .bti
  else none

/-- What LDCTL reads, given an unconstrained word: an 8-bit register leaves the upper byte unconstrained, and ISR every
bit but 9:8 (R310, R46, R52). -/
def readControl (g : ControlReg) (free : Word) (s : State) : Word :=
  match g with
  | .msr => s.msr
  | .slr => s.slr
  | .itvtp => s.itvtp
  | .isr => (free &&& 0xFCFF) ||| (s.isr &&& 0x0300)
  | .iop => joinBytes (hiByte free) s.iop
  | .bti => joinBytes (hiByte free) s.bti
  | .btc => joinBytes (hiByte free) s.btc
  | .tcr => joinBytes (hiByte free) s.tcr
  | .ccr => joinBytes (hiByte free) s.ccr
  | .lar => joinBytes (hiByte free) s.lar

/-- What LDCTL writes: an 8-bit register takes the low-order byte; ISR is not written (R309, R310). -/
def writeControl (g : ControlReg) (v : Word) (s : State) : Option State :=
  match g with
  | .msr => some { s with msr := v }
  | .slr => some { s with slr := v }
  | .itvtp => some { s with itvtp := v }
  | .isr => none
  | .iop => some { s with iop := loByte v }
  | .bti => some { s with bti := loByte v }
  | .btc => some { s with btc := loByte v }
  | .tcr => some { s with tcr := loByte v }
  | .ccr => some { s with ccr := loByte v }
  | .lar => some { s with lar := loByte v }

/-- LDCTL XX,(C) (R310). -/
def loadFromControl (len : Nat) (dst : Reg16) (s : State) : Out :=
  privCheck s <|
    match controlReg? (s.reg8 .c) with
    | none => .refused .noControlRegister
    | some g => .next ((s.drawn.setReg16 dst (readControl g s.anyWord s)).advance len)

/-- LDCTL (C),XX (R310); a new value applies from the next instruction. -/
def loadToControl (len : Nat) (src : Reg16) (s : State) : Out :=
  privCheck s <|
    match controlReg? (s.reg8 .c) with
    | none => .refused .noControlRegister
    | some g =>
      match writeControl g (s.reg16 src) (s.advance len) with
      | none => .refused .interruptStatusWrite
      | some t => .next t

/-- LDCTL XX,USP (R311). -/
def loadFromUsp (len : Nat) (dst : Reg16) (s : State) : Out :=
  privCheck s <| .next ((s.setReg16 dst s.usp).advance len)

/-- LDCTL USP,XX (R311). -/
def loadToUsp (len : Nat) (src : Reg16) (s : State) : Out :=
  privCheck s <| .next { s.advance len with usp := s.reg16 src }

/-! ### The meanings, in the table's order -/

/-- `DI` (R302). -/
def execDi (s : State) : Out := disableInterrupts 1 0x7F s

/-- `DI mask` (R302). -/
def execDiMask (mask : Byte) (s : State) : Out := disableInterrupts 3 mask s

/-- `EI` (R301). -/
def execEi (s : State) : Out := enableInterrupts 1 0x7F s

/-- `EI mask` (R301). -/
def execEiMask (mask : Byte) (s : State) : Out := enableInterrupts 3 mask s

/-- `HALT` (R303). -/
def execHalt (s : State) : Out := haltCpu 1 s

/-- `IM 0` (R304). -/
def execIm0 (s : State) : Out := setInterruptMode 2 0 s

/-- `IM 1` (R304). -/
def execIm1 (s : State) : Out := setInterruptMode 2 1 s

/-- `IM 2` (R304). -/
def execIm2 (s : State) : Out := setInterruptMode 2 2 s

/-- `IM 3` (R304). -/
def execIm3 (s : State) : Out := setInterruptMode 2 3 s

/-- `LD I,A` (R305). -/
def execLdIA (s : State) : Out := loadI 2 s

/-- `LD R,A` (R306). -/
def execLdRfA (s : State) : Out := loadR 2 s

/-- `LD A,I` (R307). -/
def execLdAI (s : State) : Out := readSpecial 2 s.i s

/-- `LD A,R` (R308). -/
def execLdARf (s : State) : Out := readSpecial 2 s.r s

/-- `LDCTL HL,(C)` (R310). -/
def execLdctlHlC (s : State) : Out := loadFromControl 2 .hl s

/-- `LDCTL XY,(C)` (R310). -/
def execLdctlXyC (xy : XY) (s : State) : Out := loadFromControl 3 (reg16OfXY xy) s

/-- `LDCTL (C),HL` (R310). -/
def execLdctlCHl (s : State) : Out := loadToControl 2 .hl s

/-- `LDCTL (C),XY` (R310). -/
def execLdctlCXy (xy : XY) (s : State) : Out := loadToControl 3 (reg16OfXY xy) s

/-- `LDCTL HL,USP` (R311). -/
def execLdctlHlUsp (s : State) : Out := loadFromUsp 2 .hl s

/-- `LDCTL XY,USP` (R311). -/
def execLdctlXyUsp (xy : XY) (s : State) : Out := loadFromUsp 3 (reg16OfXY xy) s

/-- `LDCTL USP,HL` (R311). -/
def execLdctlUspHl (s : State) : Out := loadToUsp 2 .hl s

/-- `LDCTL USP,XY` (R311). -/
def execLdctlUspXy (xy : XY) (s : State) : Out := loadToUsp 3 (reg16OfXY xy) s

end Sys2Proof.Machine
end

