-- ==== Sys2Proof/Machine/Io.lean ====
section
/-! DEFINITION. The input instruction group (47_io.md R280 to R291). -/

namespace Sys2Proof.Machine

/-- IN dst,(C): the transaction, then the destination, then the flags (R285). A store that faults leaves the event in
the trace (R331 (a)). -/
def inputC (len : Nat) (dst : Loc8) (s : State) : Out :=
  ioPrivCheck s <|
    let addr := s.ioAddr (s.reg8 .b) (s.reg8 .c)
    let v := loByte (s.ioValue addr .byte)
    let t := s.ioDone addr .byte
    settle (wr8 len dst v t) t fun u =>
      .next ((u.putFlags fun f =>
        { f with s := v.getLsbD 7, z := decide (v = 0), h := false, pv := parityEven v, n := false }).advance len)

/-- IN A,(n): no flag (R286). -/
def inputA (len : Nat) (n : Byte) (s : State) : Out :=
  ioPrivCheck s <|
    let addr := s.ioAddr s.a n
    .next (((s.ioDone addr .byte).setA (loByte (s.ioValue addr .byte))).advance len)

/-- IN[W] HL,(C): H takes AD0-AD7 and L takes AD8-AD15; on an 8-bit bus and an external page L is unconstrained
(R284, R287). -/
def inputHL (len : Nat) (s : State) : Out :=
  ioPrivCheck s <|
    let addr := s.ioAddr (s.reg8 .b) (s.reg8 .c)
    if s.wordInputExternal then
      let t := s.ioDone addr .byte
      .next ((t.drawn.setHL (joinBytes (loByte (s.ioValue addr .byte)) (loByte s.anyWord))).advance len)
    else
      .next (((s.ioDone addr .word).setHL
        (joinBytes (loByte (s.ioValue addr .word)) (hiByte (s.ioValue addr .word)))).advance len)

/-- The registers and flags after a block input of `n` bytes (R288, R289): only B counts. -/
def afterInput (d : Dir) (n : Word) (t : State) : State :=
  ((t.setHL (d.move t.hl n)).setReg8 .b (t.reg8 .b - 1)).putFlags fun f =>
    { f with z := decide (t.reg8 .b - 1 = 0), n := true }

/-- One iteration of INI, IND, INIR, INDR (R288 to R291). -/
def blockInput (d : Dir) (rep : Bool) (s : State) : Out :=
  ioPrivCheck s <|
    let addr := s.ioAddr (s.reg8 .b) (s.reg8 .c)
    let t := s.ioDone addr .byte
    settle (t.writeByte s.curData s.hl (loByte (s.ioValue addr .byte))) t fun u =>
      .next (iterationEnd 2 (rep && decide (s.reg8 .b - 1 ≠ 0)) (afterInput d 1 u))

/-- One iteration of INIW, INDW, INIRW, INDRW: refused from an external page on an 8-bit bus; the word is stored low
byte first (R283, R284, R288 to R291; log 23). -/
def blockInputWord (d : Dir) (rep : Bool) (s : State) : Out :=
  ioPrivCheck s <|
    if s.wordInputExternal then .refused .wordInputOnByteBus
    else
      let addr := s.ioAddr (s.reg8 .b) (s.reg8 .c)
      let t := s.ioDone addr .word
      settle (t.writeWord s.curData s.hl (s.ioValue addr .word)) t fun u =>
        .next (iterationEnd 2 (rep && decide (s.reg8 .b - 1 ≠ 0)) (afterInput d 2 u))

/-! ### The meanings, in the table's order -/

/-- `IN R,(C)` (R285). -/
def execInR (r : R8) (s : State) : Out := inputC 2 (.reg r) s

/-- `IN RX,(C)` (R285). -/
def execInRx (xy : XY) (half : Half) (s : State) : Out := inputC 3 (.rx xy half) s

/-- `IN (addr),(C)` (R285). -/
def execInDa (addr : Word) (s : State) : Out := inputC 5 (.mem (.da addr)) s

/-- `IN (XX + dd),(C)` (R285). -/
def execInX (base : XX) (dd : Word) (s : State) : Out := inputC 5 (.mem (.x base dd)) s

/-- `IN <addr>,(C)` (R285). -/
def execInRa (disp : Word) (s : State) : Out := inputC 5 (.mem (.ra disp)) s

/-- `IN (SP + dd),(C)` (R285). -/
def execInSr (dd : Word) (s : State) : Out := inputC 5 (.mem (.sr dd)) s

/-- `IN (XXA + XXB),(C)` (R285). -/
def execInBx (pair : BX) (s : State) : Out := inputC 3 (.mem (.bx pair)) s

/-- `IN A,(n)` (R286). -/
def execInAN (n : Byte) (s : State) : Out := inputA 2 n s

/-- `INW HL,(C)` (R287). -/
def execInw (s : State) : Out := inputHL 2 s

/-- `INI` (R288). -/
def execIni (s : State) : Out := blockInput .inc false s

/-- `INIW` (R288). -/
def execIniw (s : State) : Out := blockInputWord .inc false s

/-- `IND` (R289). -/
def execInd (s : State) : Out := blockInput .dec false s

/-- `INDW` (R289). -/
def execIndw (s : State) : Out := blockInputWord .dec false s

/-- `INIR` (R290). -/
def execInir (s : State) : Out := blockInput .inc true s

/-- `INIRW` (R290). -/
def execInirw (s : State) : Out := blockInputWord .inc true s

/-- `INDR` (R291). -/
def execIndr (s : State) : Out := blockInput .dec true s

/-- `INDRW` (R291). -/
def execIndrw (s : State) : Out := blockInputWord .dec true s

end Sys2Proof.Machine
end

