-- ==== Sys2Proof/Machine/Load16.lean ====
section
/-! DEFINITION. The 16-bit load and exchange group (41_load16_exchange.md R150 to R157). -/

namespace Sys2Proof.Machine

/-- `t = HL; HL <- src; src <- t` (R151). -/
def exchangeHL (len : Nat) (src : Reg16) (s : State) : Out :=
  .next (((s.setHL (s.reg16 src)).setReg16 src s.hl).advance len)

/-- EX (SP),dst: both bytes are read before either is written, SP does not change (R155). -/
def exchangeTop (len : Nat) (dst : Reg16) (s : State) : Out :=
  settle (s.readByte s.curData s.sp) s fun lo =>
  settle (s.readByte s.curData (s.sp + 1)) s fun hi =>
  settle (s.writeByte s.curData s.sp (loByte (s.reg16 dst))) s fun t =>
  settle (t.writeByte s.curData (s.sp + 1) (hiByte (s.reg16 dst))) s fun u =>
    .next ((u.setReg16 dst (joinBytes hi lo)).advance len)

/-- LDA: `dst <- EA(src)`, no memory access (R156). -/
def lda (len : Nat) (dst : Reg16) (src : MemOperand) (s : State) : Out :=
  .next ((s.setReg16 dst (ea len src s)).advance len)

/-- LD[W] dst,nn: `wr16(dst, nn)` (R157). -/
def ldw (len : Nat) (dst : Loc16) (nn : Word) (s : State) : Out :=
  settle (wr16 len dst nn s) s fun t => .next (t.advance len)

/-! ### The meanings, in the table's order -/

/-- `EX DE,HL` (R151). -/
def execExDeHl (s : State) : Out := exchangeHL 1 .de s

/-- `EX XY,HL` (R151). -/
def execExXyHl (xy : XY) (s : State) : Out := exchangeHL 2 (reg16OfXY xy) s

/-- `EX AF,AF'` (R152). -/
def execExAfAf (s : State) : Out := .next { s.advance 1 with afSel := !s.afSel }

/-- `EXX` (R153). -/
def execExx (s : State) : Out := .next { s.advance 1 with rfSel := !s.rfSel }

/-- `EX (SP),HL` (R155). -/
def execExSpHl (s : State) : Out := exchangeTop 1 .hl s

/-- `EX (SP),XY` (R155). -/
def execExSpXy (xy : XY) (s : State) : Out := exchangeTop 2 (reg16OfXY xy) s

/-- `LDA HL,(XX + dd)` (R156). -/
def execLdaHlX (base : XX) (dd : Word) (s : State) : Out := lda 4 .hl (.x base dd) s

/-- `LDA XY,(XX + dd)` (R156). -/
def execLdaXyX (xy : XY) (base : XX) (dd : Word) (s : State) : Out := lda 5 (reg16OfXY xy) (.x base dd) s

/-- `LDA HL,<addr>` (R156). -/
def execLdaHlRa (disp : Word) (s : State) : Out := lda 4 .hl (.ra disp) s

/-- `LDA XY,<addr>` (R156). -/
def execLdaXyRa (xy : XY) (disp : Word) (s : State) : Out := lda 5 (reg16OfXY xy) (.ra disp) s

/-- `LDA HL,(SP + dd)` (R156). -/
def execLdaHlSr (dd : Word) (s : State) : Out := lda 4 .hl (.sr dd) s

/-- `LDA XY,(SP + dd)` (R156). -/
def execLdaXySr (xy : XY) (dd : Word) (s : State) : Out := lda 5 (reg16OfXY xy) (.sr dd) s

/-- `LDA HL,(XXA + XXB)` (R156). -/
def execLdaHlBx (pair : BX) (s : State) : Out := lda 2 .hl (.bx pair) s

/-- `LDA XY,(XXA + XXB)` (R156). -/
def execLdaXyBx (xy : XY) (pair : BX) (s : State) : Out := lda 3 (reg16OfXY xy) (.bx pair) s

/-- `LDW RR,nn` (R157). -/
def execLdwRrN (w : RR) (nn : Word) (s : State) : Out := ldw 3 (.reg (reg16OfRR w)) nn s

/-- `LDW XY,nn` (R157). -/
def execLdwXyN (xy : XY) (nn : Word) (s : State) : Out := ldw 4 (.reg (reg16OfXY xy)) nn s

/-- `LDW (HL),nn` (R157). -/
def execLdwHlN (nn : Word) (s : State) : Out := ldw 4 (.mem (.ir .hl)) nn s

/-- `LDW (addr),nn` (R157). -/
def execLdwDaN (addr : Word) (nn : Word) (s : State) : Out := ldw 6 (.mem (.da addr)) nn s

/-- `LDW <addr>,nn` (R157). -/
def execLdwRaN (disp : Word) (nn : Word) (s : State) : Out := ldw 6 (.mem (.ra disp)) nn s

end Sys2Proof.Machine
end

