-- ==== Sys2Proof/Machine/Load8.lean ====
section
/-! DEFINITION. The 8-bit load group (40_load8.md R130 to R142). -/

namespace Sys2Proof.Machine

/-- A load: the source is read completely, then the destination is written; no flag (R130, R131 to R136). -/
def ld8 (len : Nat) (dst : Loc8) (src : Src8) (s : State) : Out :=
  settle (rd8 len src s) s fun v =>
  settle (wr8 len dst v s) s fun t => .next (t.advance len)

/-- `t = rd8(src); wr8(src, A); A <- t` (R137). -/
def exchangeA (len : Nat) (src : Loc8) (s : State) : Out :=
  settle (rdLoc8 len src s) s fun v =>
  settle (wr8 len src s.a s) s fun t => .next ((t.setA v).advance len)

/-- The state after an unsuccessful LDUD or LDUP: C = 1, Z the WP bit and P/V the Valid bit of the page descriptor
(R141). -/
def ldUserFailed (wp valid : Bool) (s : State) : State :=
  s.putFlags fun f => { f with c := true, z := wp, pv := valid }

/-- LDUD and LDUP, load form: the operand is a user-mode access of the given kind; an unsuccessful load leaves A
unconstrained (R141, R142). -/
def ldUserLoad (len : Nat) (kind : Kind) (m : MemOperand) (s : State) : Out :=
  privCheck s <|
  match s.translateAt { mode := .user, kind := kind } .read (ea len m s) with
  | .violation wp valid => .next ((ldUserFailed wp valid ((s.setA (loByte s.anyWord)).drawn)).advance len)
  | .phys p =>
    if s.isMemory p then
      .next (((s.setA (s.mem.get p)).putFlags fun f => { f with c := false }).advance len)
    else .refused .noMemoryThere

/-- LDUD and LDUP, store form: an unsuccessful store writes nothing (R141, R142). -/
def ldUserStore (len : Nat) (kind : Kind) (m : MemOperand) (s : State) : Out :=
  privCheck s <|
  match s.translateAt { mode := .user, kind := kind } .write (ea len m s) with
  | .violation wp valid => .next ((ldUserFailed wp valid s).advance len)
  | .phys p =>
    if s.isMemory p then
      .next (((s.putByte p s.a).putFlags fun f => { f with c := false }).advance len)
    else .refused .noMemoryThere

/-! ### The meanings, in the table's order -/

/-- `LD R1,R2` (R131). -/
def execLdReg (r : R8) (r2 : R8) (s : State) : Out := ld8 1 (.reg r) (.loc (.reg r2)) s

/-- `LD R*,RX` (R131). -/
def execLdGRx (xy : XY) (g : R8) (half : Half) (s : State) : Out := ld8 2 (.reg g) (.loc (.rx xy half)) s

/-- `LD RXA,RXB` (R131). -/
def execLdRxRx (xy : XY) (half : Half) (half2 : Half) (s : State) : Out := ld8 2 (.rx xy half) (.loc (.rx xy half2)) s

/-- `LD RX,R*` (R131). -/
def execLdRxG (xy : XY) (half : Half) (g : R8) (s : State) : Out := ld8 2 (.rx xy half) (.loc (.reg g)) s

/-- `LD R,(HL)` (R132). -/
def execLdRHl (r : R8) (s : State) : Out := ld8 1 (.reg r) (.loc (.mem (.ir .hl))) s

/-- `LD R,(XY + d)` (R132). -/
def execLdRSx (xy : XY) (r : R8) (d : Byte) (s : State) : Out := ld8 3 (.reg r) (.loc (.mem (.sx xy d))) s

/-- `LD (HL),R` (R133). -/
def execLdHlR (r : R8) (s : State) : Out := ld8 1 (.mem (.ir .hl)) (.loc (.reg r)) s

/-- `LD (XY + d),R` (R133). -/
def execLdSxR (xy : XY) (r : R8) (d : Byte) (s : State) : Out := ld8 3 (.mem (.sx xy d)) (.loc (.reg r)) s

/-- `LD R,n` (R134). -/
def execLdRN (r : R8) (n : Byte) (s : State) : Out := ld8 2 (.reg r) (.imm n) s

/-- `LD RX,n` (R134). -/
def execLdRxN (xy : XY) (half : Half) (n : Byte) (s : State) : Out := ld8 3 (.rx xy half) (.imm n) s

/-- `LD (HL),n` (R134). -/
def execLdHlN (n : Byte) (s : State) : Out := ld8 2 (.mem (.ir .hl)) (.imm n) s

/-- `LD (addr),n` (R134). -/
def execLdDaN (addr : Word) (n : Byte) (s : State) : Out := ld8 5 (.mem (.da addr)) (.imm n) s

/-- `LD (XX + dd),n` (R134). -/
def execLdXN (base : XX) (dd : Word) (n : Byte) (s : State) : Out := ld8 5 (.mem (.x base dd)) (.imm n) s

/-- `LD (XY + d),n` (R134). -/
def execLdSxN (xy : XY) (d : Byte) (n : Byte) (s : State) : Out := ld8 4 (.mem (.sx xy d)) (.imm n) s

/-- `LD <addr>,n` (R134). -/
def execLdRaN (disp : Word) (n : Byte) (s : State) : Out := ld8 5 (.mem (.ra disp)) (.imm n) s

/-- `LD (SP + dd),n` (R134). -/
def execLdSrN (dd : Word) (n : Byte) (s : State) : Out := ld8 5 (.mem (.sr dd)) (.imm n) s

/-- `LD (XXA + XXB),n` (R134). -/
def execLdBxN (pair : BX) (n : Byte) (s : State) : Out := ld8 3 (.mem (.bx pair)) (.imm n) s

/-- `LD A,(RR)` (R135). -/
def execLdAIr (bd : BD) (s : State) : Out := ld8 1 (.reg .a) (.loc (.mem (.ir (ptrOfBD bd)))) s

/-- `LD A,(addr)` (R135). -/
def execLdADa (addr : Word) (s : State) : Out := ld8 3 (.reg .a) (.loc (.mem (.da addr))) s

/-- `LD A,(XX + dd)` (R135). -/
def execLdAX (base : XX) (dd : Word) (s : State) : Out := ld8 4 (.reg .a) (.loc (.mem (.x base dd))) s

/-- `LD A,<addr>` (R135). -/
def execLdARa (disp : Word) (s : State) : Out := ld8 4 (.reg .a) (.loc (.mem (.ra disp))) s

/-- `LD A,(SP + dd)` (R135). -/
def execLdASr (dd : Word) (s : State) : Out := ld8 4 (.reg .a) (.loc (.mem (.sr dd))) s

/-- `LD A,(XXA + XXB)` (R135). -/
def execLdABx (pair : BX) (s : State) : Out := ld8 2 (.reg .a) (.loc (.mem (.bx pair))) s

/-- `LD (RR),A` (R136). -/
def execLdIrA (bd : BD) (s : State) : Out := ld8 1 (.mem (.ir (ptrOfBD bd))) (.loc (.reg .a)) s

/-- `LD (addr),A` (R136). -/
def execLdDaA (addr : Word) (s : State) : Out := ld8 3 (.mem (.da addr)) (.loc (.reg .a)) s

/-- `LD (XX + dd),A` (R136). -/
def execLdXA (base : XX) (dd : Word) (s : State) : Out := ld8 4 (.mem (.x base dd)) (.loc (.reg .a)) s

/-- `LD <addr>,A` (R136). -/
def execLdRaA (disp : Word) (s : State) : Out := ld8 4 (.mem (.ra disp)) (.loc (.reg .a)) s

/-- `LD (SP + dd),A` (R136). -/
def execLdSrA (dd : Word) (s : State) : Out := ld8 4 (.mem (.sr dd)) (.loc (.reg .a)) s

/-- `LD (XXA + XXB),A` (R136). -/
def execLdBxA (pair : BX) (s : State) : Out := ld8 2 (.mem (.bx pair)) (.loc (.reg .a)) s

/-- `EX A,R` (R137). -/
def execExAR (r : R8) (s : State) : Out := exchangeA 2 (.reg r) s

/-- `EX A,RX` (R137). -/
def execExARx (xy : XY) (half : Half) (s : State) : Out := exchangeA 3 (.rx xy half) s

/-- `EX A,(HL)` (R137). -/
def execExAHl (s : State) : Out := exchangeA 2 (.mem (.ir .hl)) s

/-- `EX A,(addr)` (R137). -/
def execExADa (addr : Word) (s : State) : Out := exchangeA 5 (.mem (.da addr)) s

/-- `EX A,(XX + dd)` (R137). -/
def execExAX (base : XX) (dd : Word) (s : State) : Out := exchangeA 5 (.mem (.x base dd)) s

/-- `EX A,(XY + d)` (R137). -/
def execExASx (xy : XY) (d : Byte) (s : State) : Out := exchangeA 4 (.mem (.sx xy d)) s

/-- `EX A,<addr>` (R137). -/
def execExARa (disp : Word) (s : State) : Out := exchangeA 5 (.mem (.ra disp)) s

/-- `EX A,(SP + dd)` (R137). -/
def execExASr (dd : Word) (s : State) : Out := exchangeA 5 (.mem (.sr dd)) s

/-- `EX A,(XXA + XXB)` (R137). -/
def execExABx (pair : BX) (s : State) : Out := exchangeA 3 (.mem (.bx pair)) s

/-- `EX H,L` (R138). -/
def execExHL (s : State) : Out := .next ((s.setHL (joinBytes (loByte s.hl) (hiByte s.hl))).advance 2)

/-- `LDUD A,(HL)` (R141). -/
def execLdudAHl (s : State) : Out := ldUserLoad 2 .data (.ir .hl) s

/-- `LDUD A,(XY + d)` (R141). -/
def execLdudASx (xy : XY) (d : Byte) (s : State) : Out := ldUserLoad 4 .data (.sx xy d) s

/-- `LDUD (HL),A` (R141). -/
def execLdudHlA (s : State) : Out := ldUserStore 2 .data (.ir .hl) s

/-- `LDUD (XY + d),A` (R141). -/
def execLdudSxA (xy : XY) (d : Byte) (s : State) : Out := ldUserStore 4 .data (.sx xy d) s

/-- `LDUP A,(HL)` (R142). -/
def execLdupAHl (s : State) : Out := ldUserLoad 2 .program (.ir .hl) s

/-- `LDUP A,(XY + d)` (R142). -/
def execLdupASx (xy : XY) (d : Byte) (s : State) : Out := ldUserLoad 4 .program (.sx xy d) s

/-- `LDUP (HL),A` (R142). -/
def execLdupHlA (s : State) : Out := ldUserStore 2 .program (.ir .hl) s

/-- `LDUP (XY + d),A` (R142). -/
def execLdupSxA (xy : XY) (d : Byte) (s : State) : Out := ldUserStore 4 .program (.sx xy d) s

end Sys2Proof.Machine
end

