-- ==== Sys2Proof/Machine/Dispatch.lean ====
section
/-! DEFINITION. The meaning of every instruction: one direct call per constructor. -/

namespace Sys2Proof.Machine

def exec (i : Instr) (s : State) : Host.Outcome State Fault Refusal :=
  match i with
  | .ldReg r r2 => Sys2Proof.Machine.execLdReg r r2 s
  | .ldGRx xy g half => Sys2Proof.Machine.execLdGRx xy g half s
  | .ldRxRx xy half half2 => Sys2Proof.Machine.execLdRxRx xy half half2 s
  | .ldRxG xy half g => Sys2Proof.Machine.execLdRxG xy half g s
  | .ldRHl r => Sys2Proof.Machine.execLdRHl r s
  | .ldRSx xy r d => Sys2Proof.Machine.execLdRSx xy r d s
  | .ldHlR r => Sys2Proof.Machine.execLdHlR r s
  | .ldSxR xy r d => Sys2Proof.Machine.execLdSxR xy r d s
  | .ldRN r n => Sys2Proof.Machine.execLdRN r n s
  | .ldRxN xy half n => Sys2Proof.Machine.execLdRxN xy half n s
  | .ldHlN n => Sys2Proof.Machine.execLdHlN n s
  | .ldDaN addr n => Sys2Proof.Machine.execLdDaN addr n s
  | .ldXN base dd n => Sys2Proof.Machine.execLdXN base dd n s
  | .ldSxN xy d n => Sys2Proof.Machine.execLdSxN xy d n s
  | .ldRaN disp n => Sys2Proof.Machine.execLdRaN disp n s
  | .ldSrN dd n => Sys2Proof.Machine.execLdSrN dd n s
  | .ldBxN pair n => Sys2Proof.Machine.execLdBxN pair n s
  | .ldAIr bd => Sys2Proof.Machine.execLdAIr bd s
  | .ldADa addr => Sys2Proof.Machine.execLdADa addr s
  | .ldAX base dd => Sys2Proof.Machine.execLdAX base dd s
  | .ldARa disp => Sys2Proof.Machine.execLdARa disp s
  | .ldASr dd => Sys2Proof.Machine.execLdASr dd s
  | .ldABx pair => Sys2Proof.Machine.execLdABx pair s
  | .ldIrA bd => Sys2Proof.Machine.execLdIrA bd s
  | .ldDaA addr => Sys2Proof.Machine.execLdDaA addr s
  | .ldXA base dd => Sys2Proof.Machine.execLdXA base dd s
  | .ldRaA disp => Sys2Proof.Machine.execLdRaA disp s
  | .ldSrA dd => Sys2Proof.Machine.execLdSrA dd s
  | .ldBxA pair => Sys2Proof.Machine.execLdBxA pair s
  | .exAR r => Sys2Proof.Machine.execExAR r s
  | .exARx xy half => Sys2Proof.Machine.execExARx xy half s
  | .exAHl => Sys2Proof.Machine.execExAHl s
  | .exADa addr => Sys2Proof.Machine.execExADa addr s
  | .exAX base dd => Sys2Proof.Machine.execExAX base dd s
  | .exASx xy d => Sys2Proof.Machine.execExASx xy d s
  | .exARa disp => Sys2Proof.Machine.execExARa disp s
  | .exASr dd => Sys2Proof.Machine.execExASr dd s
  | .exABx pair => Sys2Proof.Machine.execExABx pair s
  | .exHL => Sys2Proof.Machine.execExHL s
  | .ldudAHl => Sys2Proof.Machine.execLdudAHl s
  | .ldudASx xy d => Sys2Proof.Machine.execLdudASx xy d s
  | .ldudHlA => Sys2Proof.Machine.execLdudHlA s
  | .ldudSxA xy d => Sys2Proof.Machine.execLdudSxA xy d s
  | .ldupAHl => Sys2Proof.Machine.execLdupAHl s
  | .ldupASx xy d => Sys2Proof.Machine.execLdupASx xy d s
  | .ldupHlA => Sys2Proof.Machine.execLdupHlA s
  | .ldupSxA xy d => Sys2Proof.Machine.execLdupSxA xy d s
  | .exDeHl => Sys2Proof.Machine.execExDeHl s
  | .exXyHl xy => Sys2Proof.Machine.execExXyHl xy s
  | .exAfAf => Sys2Proof.Machine.execExAfAf s
  | .exx => Sys2Proof.Machine.execExx s
  | .exSpHl => Sys2Proof.Machine.execExSpHl s
  | .exSpXy xy => Sys2Proof.Machine.execExSpXy xy s
  | .ldaHlX base dd => Sys2Proof.Machine.execLdaHlX base dd s
  | .ldaXyX xy base dd => Sys2Proof.Machine.execLdaXyX xy base dd s
  | .ldaHlRa disp => Sys2Proof.Machine.execLdaHlRa disp s
  | .ldaXyRa xy disp => Sys2Proof.Machine.execLdaXyRa xy disp s
  | .ldaHlSr dd => Sys2Proof.Machine.execLdaHlSr dd s
  | .ldaXySr xy dd => Sys2Proof.Machine.execLdaXySr xy dd s
  | .ldaHlBx pair => Sys2Proof.Machine.execLdaHlBx pair s
  | .ldaXyBx xy pair => Sys2Proof.Machine.execLdaXyBx xy pair s
  | .ldwRrN w nn => Sys2Proof.Machine.execLdwRrN w nn s
  | .ldwXyN xy nn => Sys2Proof.Machine.execLdwXyN xy nn s
  | .ldwHlN nn => Sys2Proof.Machine.execLdwHlN nn s
  | .ldwDaN addr nn => Sys2Proof.Machine.execLdwDaN addr nn s
  | .ldwRaN disp nn => Sys2Proof.Machine.execLdwRaN disp nn s
  | .ldi => Sys2Proof.Machine.execLdi s
  | .ldd => Sys2Proof.Machine.execLdd s
  | .ldir => Sys2Proof.Machine.execLdir s
  | .lddr => Sys2Proof.Machine.execLddr s
  | .cpi => Sys2Proof.Machine.execCpi s
  | .cpd => Sys2Proof.Machine.execCpd s
  | .cpir => Sys2Proof.Machine.execCpir s
  | .cpdr => Sys2Proof.Machine.execCpdr s
  | .adcAR r => Sys2Proof.Machine.execAdcAR r s
  | .adcARx xy half => Sys2Proof.Machine.execAdcARx xy half s
  | .adcAN n => Sys2Proof.Machine.execAdcAN n s
  | .adcAHl => Sys2Proof.Machine.execAdcAHl s
  | .adcADa addr => Sys2Proof.Machine.execAdcADa addr s
  | .adcAX base dd => Sys2Proof.Machine.execAdcAX base dd s
  | .adcASx xy d => Sys2Proof.Machine.execAdcASx xy d s
  | .adcARa disp => Sys2Proof.Machine.execAdcARa disp s
  | .adcASr dd => Sys2Proof.Machine.execAdcASr dd s
  | .adcABx pair => Sys2Proof.Machine.execAdcABx pair s
  | .addAR r => Sys2Proof.Machine.execAddAR r s
  | .addARx xy half => Sys2Proof.Machine.execAddARx xy half s
  | .addAN n => Sys2Proof.Machine.execAddAN n s
  | .addAHl => Sys2Proof.Machine.execAddAHl s
  | .addADa addr => Sys2Proof.Machine.execAddADa addr s
  | .addAX base dd => Sys2Proof.Machine.execAddAX base dd s
  | .addASx xy d => Sys2Proof.Machine.execAddASx xy d s
  | .addARa disp => Sys2Proof.Machine.execAddARa disp s
  | .addASr dd => Sys2Proof.Machine.execAddASr dd s
  | .addABx pair => Sys2Proof.Machine.execAddABx pair s
  | .andAR r => Sys2Proof.Machine.execAndAR r s
  | .andARx xy half => Sys2Proof.Machine.execAndARx xy half s
  | .andAN n => Sys2Proof.Machine.execAndAN n s
  | .andAHl => Sys2Proof.Machine.execAndAHl s
  | .andADa addr => Sys2Proof.Machine.execAndADa addr s
  | .andAX base dd => Sys2Proof.Machine.execAndAX base dd s
  | .andASx xy d => Sys2Proof.Machine.execAndASx xy d s
  | .andARa disp => Sys2Proof.Machine.execAndARa disp s
  | .andASr dd => Sys2Proof.Machine.execAndASr dd s
  | .andABx pair => Sys2Proof.Machine.execAndABx pair s
  | .cpAR r => Sys2Proof.Machine.execCpAR r s
  | .cpARx xy half => Sys2Proof.Machine.execCpARx xy half s
  | .cpAN n => Sys2Proof.Machine.execCpAN n s
  | .cpAHl => Sys2Proof.Machine.execCpAHl s
  | .cpADa addr => Sys2Proof.Machine.execCpADa addr s
  | .cpAX base dd => Sys2Proof.Machine.execCpAX base dd s
  | .cpASx xy d => Sys2Proof.Machine.execCpASx xy d s
  | .cpARa disp => Sys2Proof.Machine.execCpARa disp s
  | .cpASr dd => Sys2Proof.Machine.execCpASr dd s
  | .cpABx pair => Sys2Proof.Machine.execCpABx pair s
  | .cpl => Sys2Proof.Machine.execCpl s
  | .daa => Sys2Proof.Machine.execDaa s
  | .decR r => Sys2Proof.Machine.execDecR r s
  | .decRx xy half => Sys2Proof.Machine.execDecRx xy half s
  | .decHl => Sys2Proof.Machine.execDecHl s
  | .decDa addr => Sys2Proof.Machine.execDecDa addr s
  | .decX base dd => Sys2Proof.Machine.execDecX base dd s
  | .decSx xy d => Sys2Proof.Machine.execDecSx xy d s
  | .decRa disp => Sys2Proof.Machine.execDecRa disp s
  | .decSr dd => Sys2Proof.Machine.execDecSr dd s
  | .decBx pair => Sys2Proof.Machine.execDecBx pair s
  | .divR r => Sys2Proof.Machine.execDivR r s
  | .divRx xy half => Sys2Proof.Machine.execDivRx xy half s
  | .divN n => Sys2Proof.Machine.execDivN n s
  | .divHl => Sys2Proof.Machine.execDivHl s
  | .divDa addr => Sys2Proof.Machine.execDivDa addr s
  | .divX base dd => Sys2Proof.Machine.execDivX base dd s
  | .divSx xy d => Sys2Proof.Machine.execDivSx xy d s
  | .divRa disp => Sys2Proof.Machine.execDivRa disp s
  | .divSr dd => Sys2Proof.Machine.execDivSr dd s
  | .divBx pair => Sys2Proof.Machine.execDivBx pair s
  | .divuR r => Sys2Proof.Machine.execDivuR r s
  | .divuRx xy half => Sys2Proof.Machine.execDivuRx xy half s
  | .divuN n => Sys2Proof.Machine.execDivuN n s
  | .divuHl => Sys2Proof.Machine.execDivuHl s
  | .divuDa addr => Sys2Proof.Machine.execDivuDa addr s
  | .divuX base dd => Sys2Proof.Machine.execDivuX base dd s
  | .divuSx xy d => Sys2Proof.Machine.execDivuSx xy d s
  | .divuRa disp => Sys2Proof.Machine.execDivuRa disp s
  | .divuSr dd => Sys2Proof.Machine.execDivuSr dd s
  | .divuBx pair => Sys2Proof.Machine.execDivuBx pair s
  | .extsA => Sys2Proof.Machine.execExtsA s
  | .incR r => Sys2Proof.Machine.execIncR r s
  | .incRx xy half => Sys2Proof.Machine.execIncRx xy half s
  | .incHl => Sys2Proof.Machine.execIncHl s
  | .incDa addr => Sys2Proof.Machine.execIncDa addr s
  | .incX base dd => Sys2Proof.Machine.execIncX base dd s
  | .incSx xy d => Sys2Proof.Machine.execIncSx xy d s
  | .incRa disp => Sys2Proof.Machine.execIncRa disp s
  | .incSr dd => Sys2Proof.Machine.execIncSr dd s
  | .incBx pair => Sys2Proof.Machine.execIncBx pair s
  | .adcHlRr w => Sys2Proof.Machine.execAdcHlRr w s
  | .adcXyRr xy w => Sys2Proof.Machine.execAdcXyRr xy w s
  | .addHlRr w => Sys2Proof.Machine.execAddHlRr w s
  | .addXyRr xy w => Sys2Proof.Machine.execAddXyRr xy w s
  | .addHlA => Sys2Proof.Machine.execAddHlA s
  | .addXyA xy => Sys2Proof.Machine.execAddXyA xy s
  | .addwRr w => Sys2Proof.Machine.execAddwRr w s
  | .addwXy xy => Sys2Proof.Machine.execAddwXy xy s
  | .addwN nn => Sys2Proof.Machine.execAddwN nn s
  | .addwDa addr => Sys2Proof.Machine.execAddwDa addr s
  | .addwX xy dd => Sys2Proof.Machine.execAddwX xy dd s
  | .addwRa disp => Sys2Proof.Machine.execAddwRa disp s
  | .addwHl => Sys2Proof.Machine.execAddwHl s
  | .cpwRr w => Sys2Proof.Machine.execCpwRr w s
  | .cpwXy xy => Sys2Proof.Machine.execCpwXy xy s
  | .cpwN nn => Sys2Proof.Machine.execCpwN nn s
  | .cpwDa addr => Sys2Proof.Machine.execCpwDa addr s
  | .cpwX xy dd => Sys2Proof.Machine.execCpwX xy dd s
  | .cpwRa disp => Sys2Proof.Machine.execCpwRa disp s
  | .cpwHl => Sys2Proof.Machine.execCpwHl s
  | .decwRr w => Sys2Proof.Machine.execDecwRr w s
  | .decwXy xy => Sys2Proof.Machine.execDecwXy xy s
  | .decwHl => Sys2Proof.Machine.execDecwHl s
  | .decwDa addr => Sys2Proof.Machine.execDecwDa addr s
  | .decwX xy dd => Sys2Proof.Machine.execDecwX xy dd s
  | .decwRa disp => Sys2Proof.Machine.execDecwRa disp s
  | .divwRr w => Sys2Proof.Machine.execDivwRr w s
  | .divwXy xy => Sys2Proof.Machine.execDivwXy xy s
  | .divwN nn => Sys2Proof.Machine.execDivwN nn s
  | .divwDa addr => Sys2Proof.Machine.execDivwDa addr s
  | .divwX xy dd => Sys2Proof.Machine.execDivwX xy dd s
  | .divwRa disp => Sys2Proof.Machine.execDivwRa disp s
  | .divwHl => Sys2Proof.Machine.execDivwHl s
  | .divuwRr w => Sys2Proof.Machine.execDivuwRr w s
  | .divuwXy xy => Sys2Proof.Machine.execDivuwXy xy s
  | .divuwN nn => Sys2Proof.Machine.execDivuwN nn s
  | .divuwDa addr => Sys2Proof.Machine.execDivuwDa addr s
  | .divuwX xy dd => Sys2Proof.Machine.execDivuwX xy dd s
  | .divuwRa disp => Sys2Proof.Machine.execDivuwRa disp s
  | .divuwHl => Sys2Proof.Machine.execDivuwHl s
  | .extsHl => Sys2Proof.Machine.execExtsHl s
  | .incwRr w => Sys2Proof.Machine.execIncwRr w s
  | .incwXy xy => Sys2Proof.Machine.execIncwXy xy s
  | .incwHl => Sys2Proof.Machine.execIncwHl s
  | .incwDa addr => Sys2Proof.Machine.execIncwDa addr s
  | .incwX xy dd => Sys2Proof.Machine.execIncwX xy dd s
  | .incwRa disp => Sys2Proof.Machine.execIncwRa disp s
  | .bitR bit r => Sys2Proof.Machine.execBitR bit r s
  | .bitHl bit => Sys2Proof.Machine.execBitHl bit s
  | .bitSx xy d bit => Sys2Proof.Machine.execBitSx xy d bit s
  | .callCcHl cc => Sys2Proof.Machine.execCallCcHl cc s
  | .callHl => Sys2Proof.Machine.execCallHl s
  | .callCc cc addr => Sys2Proof.Machine.execCallCc cc addr s
  | .callDa addr => Sys2Proof.Machine.execCallDa addr s
  | .callCcRa cc disp => Sys2Proof.Machine.execCallCcRa cc disp s
  | .callRa disp => Sys2Proof.Machine.execCallRa disp s
  | .ccf => Sys2Proof.Machine.execCcf s
  | .djnz disp => Sys2Proof.Machine.execDjnz disp s
  | .jpCcHl cc => Sys2Proof.Machine.execJpCcHl cc s
  | .jpHl => Sys2Proof.Machine.execJpHl s
  | .jpXy xy => Sys2Proof.Machine.execJpXy xy s
  | .jpCc cc addr => Sys2Proof.Machine.execJpCc cc addr s
  | .jpDa addr => Sys2Proof.Machine.execJpDa addr s
  | .jpCcRa cc disp => Sys2Proof.Machine.execJpCcRa cc disp s
  | .jpRa disp => Sys2Proof.Machine.execJpRa disp s
  | .jrCc jcc disp => Sys2Proof.Machine.execJrCc jcc disp s
  | .jr disp => Sys2Proof.Machine.execJr disp s
  | .jaf disp => Sys2Proof.Machine.execJaf disp s
  | .jar disp => Sys2Proof.Machine.execJar disp s
  | .inR r => Sys2Proof.Machine.execInR r s
  | .inRx xy half => Sys2Proof.Machine.execInRx xy half s
  | .inDa addr => Sys2Proof.Machine.execInDa addr s
  | .inX base dd => Sys2Proof.Machine.execInX base dd s
  | .inRa disp => Sys2Proof.Machine.execInRa disp s
  | .inSr dd => Sys2Proof.Machine.execInSr dd s
  | .inBx pair => Sys2Proof.Machine.execInBx pair s
  | .inAN n => Sys2Proof.Machine.execInAN n s
  | .inw => Sys2Proof.Machine.execInw s
  | .ini => Sys2Proof.Machine.execIni s
  | .iniw => Sys2Proof.Machine.execIniw s
  | .ind => Sys2Proof.Machine.execInd s
  | .indw => Sys2Proof.Machine.execIndw s
  | .inir => Sys2Proof.Machine.execInir s
  | .inirw => Sys2Proof.Machine.execInirw s
  | .indr => Sys2Proof.Machine.execIndr s
  | .indrw => Sys2Proof.Machine.execIndrw s
  | .di => Sys2Proof.Machine.execDi s
  | .diMask mask => Sys2Proof.Machine.execDiMask mask s
  | .ei => Sys2Proof.Machine.execEi s
  | .eiMask mask => Sys2Proof.Machine.execEiMask mask s
  | .halt => Sys2Proof.Machine.execHalt s
  | .im0 => Sys2Proof.Machine.execIm0 s
  | .im1 => Sys2Proof.Machine.execIm1 s
  | .im2 => Sys2Proof.Machine.execIm2 s
  | .im3 => Sys2Proof.Machine.execIm3 s
  | .ldIA => Sys2Proof.Machine.execLdIA s
  | .ldRfA => Sys2Proof.Machine.execLdRfA s
  | .ldAI => Sys2Proof.Machine.execLdAI s
  | .ldARf => Sys2Proof.Machine.execLdARf s
  | .ldctlHlC => Sys2Proof.Machine.execLdctlHlC s
  | .ldctlXyC xy => Sys2Proof.Machine.execLdctlXyC xy s
  | .ldctlCHl => Sys2Proof.Machine.execLdctlCHl s
  | .ldctlCXy xy => Sys2Proof.Machine.execLdctlCXy xy s
  | .ldctlHlUsp => Sys2Proof.Machine.execLdctlHlUsp s
  | .ldctlXyUsp xy => Sys2Proof.Machine.execLdctlXyUsp xy s
  | .ldctlUspHl => Sys2Proof.Machine.execLdctlUspHl s
  | .ldctlUspXy xy => Sys2Proof.Machine.execLdctlUspXy xy s

end Sys2Proof.Machine
end

