-- ==== Sys2Proof/Machine/Fetch.lean ====
section
/-! DEFINITION. Fetching and decoding at the program counter, byte by byte (00_scope.md R14 `Fetch8`, 30_encoding.md R91,
R116, 60_exceptions.md R343), and placing an instruction's bytes where they are fetched. -/

namespace Sys2Proof.Machine

/-- What one fetched byte is: the byte, a violation (20_memory.md R67), memory that is not there (R69), or a byte
written since launch, which is refused (R82). -/
inductive FetchedByte
  | byte (b : Byte)
  | stopped (e : AccessStop)
  | written
  deriving DecidableEq, Repr

/-- `Fetch8()` for byte `k` of the instruction at PC: a program access of the current mode (R63), addresses modulo 2^16
(R61). -/
def State.fetchByte (s : State) (k : Nat) : FetchedByte :=
  match s.reach s.curProg .fetch (s.pc + BitVec.ofNat 16 k) with
  | .error e => .stopped e
  | .ok p => if s.wasWritten p then .written else .byte (s.mem.get p)

/-- What the fetch of a whole instruction gives. -/
inductive Fetched
  | instr (i : Instr)
  | stopped (e : AccessStop)
  | refused (r : Refusal)
  deriving DecidableEq, Repr

/-- Fetches one byte after another until the bytes select a row or no row begins with them (R116, R118); at most `fuel`
bytes more. -/
def State.fetchFrom (s : State) : Nat → List Byte → Fetched
  | 0, _ => .refused .unassignedEncoding
  | fuel + 1, got =>
    match s.fetchByte got.length with
    | .stopped e => .stopped e
    | .written => .refused .writtenCodeFetched
    | .byte b =>
      match decode (got ++ [b]) with
      | .ok i _ => .instr i
      | .short => s.fetchFrom fuel (got ++ [b])
      | .unassigned => .refused .unassignedEncoding

/-- The longest instruction: 6 bytes (R90). -/
def maxLength : Nat := 6

/-- The instruction at the program counter. -/
def State.fetch (s : State) : Fetched := s.fetchFrom maxLength []

/-- One byte placed where byte `k` of the instruction at PC is fetched, as the launch places code (70_reset_and_hazards.md
R371 L-CODE): its address does not count as written since launch. -/
def State.placeByte (s : State) (k : Nat) (b : Byte) : State :=
  match s.translateAt s.curProg .fetch (s.pc + BitVec.ofNat 16 k) with
  | .violation _ _ => s
  | .phys p => { s with mem := s.mem.set p b, written := removeAddr p.toNat s.written }

/-- Bytes placed from byte `k` on. -/
def State.placeBytes (s : State) (k : Nat) : List Byte → State
  | [] => s
  | b :: t => (s.placeByte k b).placeBytes (k + 1) t

end Sys2Proof.Machine
end

