-- ==== Sys2Proof/Machine/Step.lean ====
section
/-! DEFINITION. The step function (70_reset_and_hazards.md R373), in the order of 60_exceptions.md R343. -/

namespace Sys2Proof.Machine

/-- One step. A halted machine stays as it is (R352; log 25); the Single-Step bit traps before the fetch (R342); the
fetched instruction is executed; it advances the program counter itself. -/
def step (s : State) : Host.Outcome State Fault Refusal :=
  if s.halted then .next s
  else if s.msr.getLsbD s.cfg.msrSS then raise .singleStep s
  else
    match s.fetch with
    | .stopped e => stop e s
    | .refused r => .refused r
    | .instr i => exec i s

/-- The state with an instruction placed where the next step fetches, and running (log 9, 21): the bytes of
`tableBytes`, with operand bytes of zero up to the longest instruction. -/
def State.withFetchWord (s : State) (nbits w : Nat) : State :=
  { (s.placeBytes 0 (tableBytes nbits w)) with halted := false }

end Sys2Proof.Machine
end

