-- ==== Sys2Proof/Forms.lean ====
section
/-! DEFINITION. The shapes of the instructions, for the statements: which rows of the table share an operation, each with
its length in bytes and its operands, which memory accesses it makes, and which instructions are privileged. -/

namespace Sys2Proof.Machine

/-- The byte loads (40_load8.md R131 to R136): length, destination, source. -/
inductive LoadForm : Instr → Nat → Loc8 → Src8 → Prop
  | ldReg (r : R8) (r2 : R8) : LoadForm (.ldReg r r2) 1 (.reg r) (.loc (.reg r2))
  | ldGRx (xy : XY) (g : R8) (half : Half) : LoadForm (.ldGRx xy g half) 2 (.reg g) (.loc (.rx xy half))
  | ldRxRx (xy : XY) (half : Half) (half2 : Half) :
      LoadForm (.ldRxRx xy half half2) 2 (.rx xy half) (.loc (.rx xy half2))
  | ldRxG (xy : XY) (half : Half) (g : R8) : LoadForm (.ldRxG xy half g) 2 (.rx xy half) (.loc (.reg g))
  | ldRHl (r : R8) : LoadForm (.ldRHl r) 1 (.reg r) (.loc (.mem (.ir .hl)))
  | ldRSx (xy : XY) (r : R8) (d : Byte) : LoadForm (.ldRSx xy r d) 3 (.reg r) (.loc (.mem (.sx xy d)))
  | ldHlR (r : R8) : LoadForm (.ldHlR r) 1 (.mem (.ir .hl)) (.loc (.reg r))
  | ldSxR (xy : XY) (r : R8) (d : Byte) : LoadForm (.ldSxR xy r d) 3 (.mem (.sx xy d)) (.loc (.reg r))
  | ldRN (r : R8) (n : Byte) : LoadForm (.ldRN r n) 2 (.reg r) (.imm n)
  | ldRxN (xy : XY) (half : Half) (n : Byte) : LoadForm (.ldRxN xy half n) 3 (.rx xy half) (.imm n)
  | ldHlN (n : Byte) : LoadForm (.ldHlN n) 2 (.mem (.ir .hl)) (.imm n)
  | ldDaN (addr : Word) (n : Byte) : LoadForm (.ldDaN addr n) 5 (.mem (.da addr)) (.imm n)
  | ldXN (base : XX) (dd : Word) (n : Byte) : LoadForm (.ldXN base dd n) 5 (.mem (.x base dd)) (.imm n)
  | ldSxN (xy : XY) (d : Byte) (n : Byte) : LoadForm (.ldSxN xy d n) 4 (.mem (.sx xy d)) (.imm n)
  | ldRaN (disp : Word) (n : Byte) : LoadForm (.ldRaN disp n) 5 (.mem (.ra disp)) (.imm n)
  | ldSrN (dd : Word) (n : Byte) : LoadForm (.ldSrN dd n) 5 (.mem (.sr dd)) (.imm n)
  | ldBxN (pair : BX) (n : Byte) : LoadForm (.ldBxN pair n) 3 (.mem (.bx pair)) (.imm n)
  | ldAIr (bd : BD) : LoadForm (.ldAIr bd) 1 (.reg .a) (.loc (.mem (.ir (ptrOfBD bd))))
  | ldADa (addr : Word) : LoadForm (.ldADa addr) 3 (.reg .a) (.loc (.mem (.da addr)))
  | ldAX (base : XX) (dd : Word) : LoadForm (.ldAX base dd) 4 (.reg .a) (.loc (.mem (.x base dd)))
  | ldARa (disp : Word) : LoadForm (.ldARa disp) 4 (.reg .a) (.loc (.mem (.ra disp)))
  | ldASr (dd : Word) : LoadForm (.ldASr dd) 4 (.reg .a) (.loc (.mem (.sr dd)))
  | ldABx (pair : BX) : LoadForm (.ldABx pair) 2 (.reg .a) (.loc (.mem (.bx pair)))
  | ldIrA (bd : BD) : LoadForm (.ldIrA bd) 1 (.mem (.ir (ptrOfBD bd))) (.loc (.reg .a))
  | ldDaA (addr : Word) : LoadForm (.ldDaA addr) 3 (.mem (.da addr)) (.loc (.reg .a))
  | ldXA (base : XX) (dd : Word) : LoadForm (.ldXA base dd) 4 (.mem (.x base dd)) (.loc (.reg .a))
  | ldRaA (disp : Word) : LoadForm (.ldRaA disp) 4 (.mem (.ra disp)) (.loc (.reg .a))
  | ldSrA (dd : Word) : LoadForm (.ldSrA dd) 4 (.mem (.sr dd)) (.loc (.reg .a))
  | ldBxA (pair : BX) : LoadForm (.ldBxA pair) 2 (.mem (.bx pair)) (.loc (.reg .a))

/-- EX A,src (R137): length, source. -/
inductive ExchangeAForm : Instr → Nat → Loc8 → Prop
  | exAR (r : R8) : ExchangeAForm (.exAR r) 2 (.reg r)
  | exARx (xy : XY) (half : Half) : ExchangeAForm (.exARx xy half) 3 (.rx xy half)
  | exAHl : ExchangeAForm .exAHl 2 (.mem (.ir .hl))
  | exADa (addr : Word) : ExchangeAForm (.exADa addr) 5 (.mem (.da addr))
  | exAX (base : XX) (dd : Word) : ExchangeAForm (.exAX base dd) 5 (.mem (.x base dd))
  | exASx (xy : XY) (d : Byte) : ExchangeAForm (.exASx xy d) 4 (.mem (.sx xy d))
  | exARa (disp : Word) : ExchangeAForm (.exARa disp) 5 (.mem (.ra disp))
  | exASr (dd : Word) : ExchangeAForm (.exASr dd) 5 (.mem (.sr dd))
  | exABx (pair : BX) : ExchangeAForm (.exABx pair) 3 (.mem (.bx pair))

/-- LDUD and LDUP, load form (R141, R142): length, kind of the user space, source. -/
inductive UserLoadForm : Instr → Nat → Kind → MemOperand → Prop
  | ldudAHl : UserLoadForm .ldudAHl 2 .data (.ir .hl)
  | ldudASx (xy : XY) (d : Byte) : UserLoadForm (.ldudASx xy d) 4 .data (.sx xy d)
  | ldupAHl : UserLoadForm .ldupAHl 2 .program (.ir .hl)
  | ldupASx (xy : XY) (d : Byte) : UserLoadForm (.ldupASx xy d) 4 .program (.sx xy d)

/-- LDUD and LDUP, store form (R141, R142): length, kind of the user space, destination. -/
inductive UserStoreForm : Instr → Nat → Kind → MemOperand → Prop
  | ldudHlA : UserStoreForm .ldudHlA 2 .data (.ir .hl)
  | ldudSxA (xy : XY) (d : Byte) : UserStoreForm (.ldudSxA xy d) 4 .data (.sx xy d)
  | ldupHlA : UserStoreForm .ldupHlA 2 .program (.ir .hl)
  | ldupSxA (xy : XY) (d : Byte) : UserStoreForm (.ldupSxA xy d) 4 .program (.sx xy d)

/-- EX src,HL (41_load16_exchange.md R151): length, source. -/
inductive ExchangeHLForm : Instr → Nat → Reg16 → Prop
  | exDeHl : ExchangeHLForm .exDeHl 1 .de
  | exXyHl (xy : XY) : ExchangeHLForm (.exXyHl xy) 2 (reg16OfXY xy)

/-- EX (SP),dst (R155): length, destination. -/
inductive StackTopForm : Instr → Nat → Reg16 → Prop
  | exSpHl : StackTopForm .exSpHl 1 .hl
  | exSpXy (xy : XY) : StackTopForm (.exSpXy xy) 2 (reg16OfXY xy)

/-- LDA (R156): length, destination, source. -/
inductive LoadAddressForm : Instr → Nat → Reg16 → MemOperand → Prop
  | ldaHlX (base : XX) (dd : Word) : LoadAddressForm (.ldaHlX base dd) 4 .hl (.x base dd)
  | ldaXyX (xy : XY) (base : XX) (dd : Word) : LoadAddressForm (.ldaXyX xy base dd) 5 (reg16OfXY xy) (.x base dd)
  | ldaHlRa (disp : Word) : LoadAddressForm (.ldaHlRa disp) 4 .hl (.ra disp)
  | ldaXyRa (xy : XY) (disp : Word) : LoadAddressForm (.ldaXyRa xy disp) 5 (reg16OfXY xy) (.ra disp)
  | ldaHlSr (dd : Word) : LoadAddressForm (.ldaHlSr dd) 4 .hl (.sr dd)
  | ldaXySr (xy : XY) (dd : Word) : LoadAddressForm (.ldaXySr xy dd) 5 (reg16OfXY xy) (.sr dd)
  | ldaHlBx (pair : BX) : LoadAddressForm (.ldaHlBx pair) 2 .hl (.bx pair)
  | ldaXyBx (xy : XY) (pair : BX) : LoadAddressForm (.ldaXyBx xy pair) 3 (reg16OfXY xy) (.bx pair)

/-- LD[W] dst,nn (R157): length, destination, immediate. -/
inductive LoadWordForm : Instr → Nat → Loc16 → Word → Prop
  | ldwRrN (w : RR) (nn : Word) : LoadWordForm (.ldwRrN w nn) 3 (.reg (reg16OfRR w)) nn
  | ldwXyN (xy : XY) (nn : Word) : LoadWordForm (.ldwXyN xy nn) 4 (.reg (reg16OfXY xy)) nn
  | ldwHlN (nn : Word) : LoadWordForm (.ldwHlN nn) 4 (.mem (.ir .hl)) nn
  | ldwDaN (addr : Word) (nn : Word) : LoadWordForm (.ldwDaN addr nn) 6 (.mem (.da addr)) nn
  | ldwRaN (disp : Word) (nn : Word) : LoadWordForm (.ldwRaN disp nn) 6 (.mem (.ra disp)) nn

/-- The block transfers (42_block.md R171 to R174): direction, repeating. -/
inductive BlockLoadForm : Instr → Dir → Bool → Prop
  | ldi : BlockLoadForm .ldi .inc false
  | ldd : BlockLoadForm .ldd .dec false
  | ldir : BlockLoadForm .ldir .inc true
  | lddr : BlockLoadForm .lddr .dec true

/-- The block searches (R175 to R179): direction, repeating. -/
inductive BlockCompareForm : Instr → Dir → Bool → Prop
  | cpi : BlockCompareForm .cpi .inc false
  | cpd : BlockCompareForm .cpd .dec false
  | cpir : BlockCompareForm .cpir .inc true
  | cpdr : BlockCompareForm .cpdr .dec true

/-- The byte operations with an accumulator or HL operand (43_arith8.md R190). -/
inductive Alu8
  | adc | add | and | cp | div | divu
  deriving DecidableEq, Repr

/-- The two-operand byte operations (R191 to R194, R198, R199): length, source. -/
inductive Alu8Form : Alu8 → Instr → Nat → Src8 → Prop
  | adcAR (r : R8) : Alu8Form .adc (.adcAR r) 1 (.loc (.reg r))
  | adcARx (xy : XY) (half : Half) : Alu8Form .adc (.adcARx xy half) 2 (.loc (.rx xy half))
  | adcAN (n : Byte) : Alu8Form .adc (.adcAN n) 2 (.imm n)
  | adcAHl : Alu8Form .adc .adcAHl 1 (.loc (.mem (.ir .hl)))
  | adcADa (addr : Word) : Alu8Form .adc (.adcADa addr) 4 (.loc (.mem (.da addr)))
  | adcAX (base : XX) (dd : Word) : Alu8Form .adc (.adcAX base dd) 4 (.loc (.mem (.x base dd)))
  | adcASx (xy : XY) (d : Byte) : Alu8Form .adc (.adcASx xy d) 3 (.loc (.mem (.sx xy d)))
  | adcARa (disp : Word) : Alu8Form .adc (.adcARa disp) 4 (.loc (.mem (.ra disp)))
  | adcASr (dd : Word) : Alu8Form .adc (.adcASr dd) 4 (.loc (.mem (.sr dd)))
  | adcABx (pair : BX) : Alu8Form .adc (.adcABx pair) 2 (.loc (.mem (.bx pair)))
  | addAR (r : R8) : Alu8Form .add (.addAR r) 1 (.loc (.reg r))
  | addARx (xy : XY) (half : Half) : Alu8Form .add (.addARx xy half) 2 (.loc (.rx xy half))
  | addAN (n : Byte) : Alu8Form .add (.addAN n) 2 (.imm n)
  | addAHl : Alu8Form .add .addAHl 1 (.loc (.mem (.ir .hl)))
  | addADa (addr : Word) : Alu8Form .add (.addADa addr) 4 (.loc (.mem (.da addr)))
  | addAX (base : XX) (dd : Word) : Alu8Form .add (.addAX base dd) 4 (.loc (.mem (.x base dd)))
  | addASx (xy : XY) (d : Byte) : Alu8Form .add (.addASx xy d) 3 (.loc (.mem (.sx xy d)))
  | addARa (disp : Word) : Alu8Form .add (.addARa disp) 4 (.loc (.mem (.ra disp)))
  | addASr (dd : Word) : Alu8Form .add (.addASr dd) 4 (.loc (.mem (.sr dd)))
  | addABx (pair : BX) : Alu8Form .add (.addABx pair) 2 (.loc (.mem (.bx pair)))
  | andAR (r : R8) : Alu8Form .and (.andAR r) 1 (.loc (.reg r))
  | andARx (xy : XY) (half : Half) : Alu8Form .and (.andARx xy half) 2 (.loc (.rx xy half))
  | andAN (n : Byte) : Alu8Form .and (.andAN n) 2 (.imm n)
  | andAHl : Alu8Form .and .andAHl 1 (.loc (.mem (.ir .hl)))
  | andADa (addr : Word) : Alu8Form .and (.andADa addr) 4 (.loc (.mem (.da addr)))
  | andAX (base : XX) (dd : Word) : Alu8Form .and (.andAX base dd) 4 (.loc (.mem (.x base dd)))
  | andASx (xy : XY) (d : Byte) : Alu8Form .and (.andASx xy d) 3 (.loc (.mem (.sx xy d)))
  | andARa (disp : Word) : Alu8Form .and (.andARa disp) 4 (.loc (.mem (.ra disp)))
  | andASr (dd : Word) : Alu8Form .and (.andASr dd) 4 (.loc (.mem (.sr dd)))
  | andABx (pair : BX) : Alu8Form .and (.andABx pair) 2 (.loc (.mem (.bx pair)))
  | cpAR (r : R8) : Alu8Form .cp (.cpAR r) 1 (.loc (.reg r))
  | cpARx (xy : XY) (half : Half) : Alu8Form .cp (.cpARx xy half) 2 (.loc (.rx xy half))
  | cpAN (n : Byte) : Alu8Form .cp (.cpAN n) 2 (.imm n)
  | cpAHl : Alu8Form .cp .cpAHl 1 (.loc (.mem (.ir .hl)))
  | cpADa (addr : Word) : Alu8Form .cp (.cpADa addr) 4 (.loc (.mem (.da addr)))
  | cpAX (base : XX) (dd : Word) : Alu8Form .cp (.cpAX base dd) 4 (.loc (.mem (.x base dd)))
  | cpASx (xy : XY) (d : Byte) : Alu8Form .cp (.cpASx xy d) 3 (.loc (.mem (.sx xy d)))
  | cpARa (disp : Word) : Alu8Form .cp (.cpARa disp) 4 (.loc (.mem (.ra disp)))
  | cpASr (dd : Word) : Alu8Form .cp (.cpASr dd) 4 (.loc (.mem (.sr dd)))
  | cpABx (pair : BX) : Alu8Form .cp (.cpABx pair) 2 (.loc (.mem (.bx pair)))
  | divR (r : R8) : Alu8Form .div (.divR r) 2 (.loc (.reg r))
  | divRx (xy : XY) (half : Half) : Alu8Form .div (.divRx xy half) 3 (.loc (.rx xy half))
  | divN (n : Byte) : Alu8Form .div (.divN n) 4 (.imm n)
  | divHl : Alu8Form .div .divHl 2 (.loc (.mem (.ir .hl)))
  | divDa (addr : Word) : Alu8Form .div (.divDa addr) 5 (.loc (.mem (.da addr)))
  | divX (base : XX) (dd : Word) : Alu8Form .div (.divX base dd) 5 (.loc (.mem (.x base dd)))
  | divSx (xy : XY) (d : Byte) : Alu8Form .div (.divSx xy d) 4 (.loc (.mem (.sx xy d)))
  | divRa (disp : Word) : Alu8Form .div (.divRa disp) 5 (.loc (.mem (.ra disp)))
  | divSr (dd : Word) : Alu8Form .div (.divSr dd) 5 (.loc (.mem (.sr dd)))
  | divBx (pair : BX) : Alu8Form .div (.divBx pair) 3 (.loc (.mem (.bx pair)))
  | divuR (r : R8) : Alu8Form .divu (.divuR r) 2 (.loc (.reg r))
  | divuRx (xy : XY) (half : Half) : Alu8Form .divu (.divuRx xy half) 3 (.loc (.rx xy half))
  | divuN (n : Byte) : Alu8Form .divu (.divuN n) 4 (.imm n)
  | divuHl : Alu8Form .divu .divuHl 2 (.loc (.mem (.ir .hl)))
  | divuDa (addr : Word) : Alu8Form .divu (.divuDa addr) 5 (.loc (.mem (.da addr)))
  | divuX (base : XX) (dd : Word) : Alu8Form .divu (.divuX base dd) 5 (.loc (.mem (.x base dd)))
  | divuSx (xy : XY) (d : Byte) : Alu8Form .divu (.divuSx xy d) 4 (.loc (.mem (.sx xy d)))
  | divuRa (disp : Word) : Alu8Form .divu (.divuRa disp) 5 (.loc (.mem (.ra disp)))
  | divuSr (dd : Word) : Alu8Form .divu (.divuSr dd) 5 (.loc (.mem (.sr dd)))
  | divuBx (pair : BX) : Alu8Form .divu (.divuBx pair) 3 (.loc (.mem (.bx pair)))

/-- DEC dst and INC dst, byte (R197, R201): length, destination. -/
inductive Count8Form : Dir → Instr → Nat → Loc8 → Prop
  | decR (r : R8) : Count8Form .dec (.decR r) 1 (.reg r)
  | decRx (xy : XY) (half : Half) : Count8Form .dec (.decRx xy half) 2 (.rx xy half)
  | decHl : Count8Form .dec .decHl 1 (.mem (.ir .hl))
  | decDa (addr : Word) : Count8Form .dec (.decDa addr) 4 (.mem (.da addr))
  | decX (base : XX) (dd : Word) : Count8Form .dec (.decX base dd) 4 (.mem (.x base dd))
  | decSx (xy : XY) (d : Byte) : Count8Form .dec (.decSx xy d) 3 (.mem (.sx xy d))
  | decRa (disp : Word) : Count8Form .dec (.decRa disp) 4 (.mem (.ra disp))
  | decSr (dd : Word) : Count8Form .dec (.decSr dd) 4 (.mem (.sr dd))
  | decBx (pair : BX) : Count8Form .dec (.decBx pair) 2 (.mem (.bx pair))
  | incR (r : R8) : Count8Form .inc (.incR r) 1 (.reg r)
  | incRx (xy : XY) (half : Half) : Count8Form .inc (.incRx xy half) 2 (.rx xy half)
  | incHl : Count8Form .inc .incHl 1 (.mem (.ir .hl))
  | incDa (addr : Word) : Count8Form .inc (.incDa addr) 4 (.mem (.da addr))
  | incX (base : XX) (dd : Word) : Count8Form .inc (.incX base dd) 4 (.mem (.x base dd))
  | incSx (xy : XY) (d : Byte) : Count8Form .inc (.incSx xy d) 3 (.mem (.sx xy d))
  | incRa (disp : Word) : Count8Form .inc (.incRa disp) 4 (.mem (.ra disp))
  | incSr (dd : Word) : Count8Form .inc (.incSr dd) 4 (.mem (.sr dd))
  | incBx (pair : BX) : Count8Form .inc (.incBx pair) 2 (.mem (.bx pair))

/-- The word additions of a register (44_arith16.md R221, R222). -/
inductive AddKind
  | adc | add
  deriving DecidableEq, Repr

/-- ADC dst,src and ADD dst,src, word (R221, R222): length, destination, source. -/
inductive AddWordForm : AddKind → Instr → Nat → Reg16 → Reg16 → Prop
  | adcHlRr (w : RR) : AddWordForm .adc (.adcHlRr w) 2 .hl (reg16OfRR w)
  | adcXyRr (xy : XY) (w : RRX) : AddWordForm .adc (.adcXyRr xy w) 3 (reg16OfXY xy) (reg16OfRRX xy w)
  | addHlRr (w : RR) : AddWordForm .add (.addHlRr w) 1 .hl (reg16OfRR w)
  | addXyRr (xy : XY) (w : RRX) : AddWordForm .add (.addXyRr xy w) 2 (reg16OfXY xy) (reg16OfRRX xy w)

/-- ADD dst,A (R223): length, destination. -/
inductive AddAccumulatorForm : Instr → Nat → Reg16 → Prop
  | addHlA : AddAccumulatorForm .addHlA 2 .hl
  | addXyA (xy : XY) : AddAccumulatorForm (.addXyA xy) 3 (reg16OfXY xy)

/-- The word operations with HL or DEHL (44_arith16.md R224, R225, R227, R228). -/
inductive Alu16
  | addw | cpw | divw | divuw
  deriving DecidableEq, Repr

/-- The two-operand word operations (R224, R225, R227, R228): length, source. -/
inductive Alu16Form : Alu16 → Instr → Nat → Src16 → Prop
  | addwRr (w : RR) : Alu16Form .addw (.addwRr w) 2 (.loc (.reg (reg16OfRR w)))
  | addwXy (xy : XY) : Alu16Form .addw (.addwXy xy) 3 (.loc (.reg (reg16OfXY xy)))
  | addwN (nn : Word) : Alu16Form .addw (.addwN nn) 5 (.imm nn)
  | addwDa (addr : Word) : Alu16Form .addw (.addwDa addr) 5 (.loc (.mem (.da addr)))
  | addwX (xy : XY) (dd : Word) : Alu16Form .addw (.addwX xy dd) 5 (.loc (.mem (.x (xxOfXY xy) dd)))
  | addwRa (disp : Word) : Alu16Form .addw (.addwRa disp) 5 (.loc (.mem (.ra disp)))
  | addwHl : Alu16Form .addw .addwHl 3 (.loc (.mem (.ir .hl)))
  | cpwRr (w : RR) : Alu16Form .cpw (.cpwRr w) 2 (.loc (.reg (reg16OfRR w)))
  | cpwXy (xy : XY) : Alu16Form .cpw (.cpwXy xy) 3 (.loc (.reg (reg16OfXY xy)))
  | cpwN (nn : Word) : Alu16Form .cpw (.cpwN nn) 5 (.imm nn)
  | cpwDa (addr : Word) : Alu16Form .cpw (.cpwDa addr) 5 (.loc (.mem (.da addr)))
  | cpwX (xy : XY) (dd : Word) : Alu16Form .cpw (.cpwX xy dd) 5 (.loc (.mem (.x (xxOfXY xy) dd)))
  | cpwRa (disp : Word) : Alu16Form .cpw (.cpwRa disp) 5 (.loc (.mem (.ra disp)))
  | cpwHl : Alu16Form .cpw .cpwHl 3 (.loc (.mem (.ir .hl)))
  | divwRr (w : RR) : Alu16Form .divw (.divwRr w) 2 (.loc (.reg (reg16OfRR w)))
  | divwXy (xy : XY) : Alu16Form .divw (.divwXy xy) 3 (.loc (.reg (reg16OfXY xy)))
  | divwN (nn : Word) : Alu16Form .divw (.divwN nn) 5 (.imm nn)
  | divwDa (addr : Word) : Alu16Form .divw (.divwDa addr) 5 (.loc (.mem (.da addr)))
  | divwX (xy : XY) (dd : Word) : Alu16Form .divw (.divwX xy dd) 5 (.loc (.mem (.x (xxOfXY xy) dd)))
  | divwRa (disp : Word) : Alu16Form .divw (.divwRa disp) 5 (.loc (.mem (.ra disp)))
  | divwHl : Alu16Form .divw .divwHl 3 (.loc (.mem (.ir .hl)))
  | divuwRr (w : RR) : Alu16Form .divuw (.divuwRr w) 2 (.loc (.reg (reg16OfRR w)))
  | divuwXy (xy : XY) : Alu16Form .divuw (.divuwXy xy) 3 (.loc (.reg (reg16OfXY xy)))
  | divuwN (nn : Word) : Alu16Form .divuw (.divuwN nn) 5 (.imm nn)
  | divuwDa (addr : Word) : Alu16Form .divuw (.divuwDa addr) 5 (.loc (.mem (.da addr)))
  | divuwX (xy : XY) (dd : Word) : Alu16Form .divuw (.divuwX xy dd) 5 (.loc (.mem (.x (xxOfXY xy) dd)))
  | divuwRa (disp : Word) : Alu16Form .divuw (.divuwRa disp) 5 (.loc (.mem (.ra disp)))
  | divuwHl : Alu16Form .divuw .divuwHl 3 (.loc (.mem (.ir .hl)))

/-- DEC[W] dst and INC[W] dst (R226, R230): length, destination. -/
inductive Count16Form : Dir → Instr → Nat → Loc16 → Prop
  | decwRr (w : RR) : Count16Form .dec (.decwRr w) 1 (.reg (reg16OfRR w))
  | decwXy (xy : XY) : Count16Form .dec (.decwXy xy) 2 (.reg (reg16OfXY xy))
  | decwHl : Count16Form .dec .decwHl 2 (.mem (.ir .hl))
  | decwDa (addr : Word) : Count16Form .dec (.decwDa addr) 4 (.mem (.da addr))
  | decwX (xy : XY) (dd : Word) : Count16Form .dec (.decwX xy dd) 4 (.mem (.x (xxOfXY xy) dd))
  | decwRa (disp : Word) : Count16Form .dec (.decwRa disp) 4 (.mem (.ra disp))
  | incwRr (w : RR) : Count16Form .inc (.incwRr w) 1 (.reg (reg16OfRR w))
  | incwXy (xy : XY) : Count16Form .inc (.incwXy xy) 2 (.reg (reg16OfXY xy))
  | incwHl : Count16Form .inc .incwHl 2 (.mem (.ir .hl))
  | incwDa (addr : Word) : Count16Form .inc (.incwDa addr) 4 (.mem (.da addr))
  | incwX (xy : XY) (dd : Word) : Count16Form .inc (.incwX xy dd) 4 (.mem (.x (xxOfXY xy) dd))
  | incwRa (disp : Word) : Count16Form .inc (.incwRa disp) 4 (.mem (.ra disp))

/-- BIT b,dst (45_bit.md R251): length, bit number, operand. -/
inductive BitForm : Instr → Nat → BitVec 3 → Loc8 → Prop
  | bitR (bit : BitVec 3) (r : R8) : BitForm (.bitR bit r) 2 bit (.reg r)
  | bitHl (bit : BitVec 3) : BitForm (.bitHl bit) 2 bit (.mem (.ir .hl))
  | bitSx (xy : XY) (d : Byte) (bit : BitVec 3) : BitForm (.bitSx xy d bit) 4 bit (.mem (.sx xy d))

/-- What a control transfer tests (30_encoding.md R110, 46_control.md R265 to R267). -/
inductive Cond
  | always
  | cc (code : CC)
  | jcc (code : JCC)
  | auxAF
  | auxRF
  deriving DecidableEq, Repr

/-- Whether the condition holds: the flags of Table 5-1 (R110), `AFsel` and `RFsel` (10_state.md R32). -/
def Cond.holds (k : Cond) (s : State) : Bool :=
  match k with
  | .always => true
  | .cc .nz => !s.f.z
  | .cc .z => s.f.z
  | .cc .nc => !s.f.c
  | .cc .c => s.f.c
  | .cc .po => !s.f.pv
  | .cc .pe => s.f.pv
  | .cc .p => !s.f.s
  | .cc .m => s.f.s
  | .jcc .nz => !s.f.z
  | .jcc .z => s.f.z
  | .jcc .nc => !s.f.c
  | .jcc .c => s.f.c
  | .auxAF => s.afSel
  | .auxRF => s.rfSel

/-- How a control transfer names its target (46_control.md R268): by the operand's address, or by a one-byte
displacement from the next instruction. -/
inductive JumpTarget
  | operand (m : MemOperand)
  | short (disp : Byte)
  deriving DecidableEq, Repr

/-- CALL [cc,]dst (46_control.md R260): length, condition, operand. -/
inductive CallForm : Instr → Nat → Cond → MemOperand → Prop
  | callCcHl (cc : CC) : CallForm (.callCcHl cc) 2 (.cc cc) (.ir .hl)
  | callHl : CallForm .callHl 2 .always (.ir .hl)
  | callCc (cc : CC) (addr : Word) : CallForm (.callCc cc addr) 3 (.cc cc) (.da addr)
  | callDa (addr : Word) : CallForm (.callDa addr) 3 .always (.da addr)
  | callCcRa (cc : CC) (disp : Word) : CallForm (.callCcRa cc disp) 4 (.cc cc) (.ra disp)
  | callRa (disp : Word) : CallForm (.callRa disp) 4 .always (.ra disp)

/-- JP, JR, JAF and JAR (R264 to R267): length, condition, target. -/
inductive JumpForm : Instr → Nat → Cond → JumpTarget → Prop
  | jpCcHl (cc : CC) : JumpForm (.jpCcHl cc) 2 (.cc cc) (.operand (.ir .hl))
  | jpHl : JumpForm .jpHl 1 .always (.operand (.ir .hl))
  | jpXy (xy : XY) : JumpForm (.jpXy xy) 2 .always (.operand (.ir (ptrOfXY xy)))
  | jpCc (cc : CC) (addr : Word) : JumpForm (.jpCc cc addr) 3 (.cc cc) (.operand (.da addr))
  | jpDa (addr : Word) : JumpForm (.jpDa addr) 3 .always (.operand (.da addr))
  | jpCcRa (cc : CC) (disp : Word) : JumpForm (.jpCcRa cc disp) 4 (.cc cc) (.operand (.ra disp))
  | jpRa (disp : Word) : JumpForm (.jpRa disp) 4 .always (.operand (.ra disp))
  | jrCc (jcc : JCC) (disp : Byte) : JumpForm (.jrCc jcc disp) 2 (.jcc jcc) (.short disp)
  | jr (disp : Byte) : JumpForm (.jr disp) 2 .always (.short disp)
  | jaf (disp : Byte) : JumpForm (.jaf disp) 3 .auxAF (.short disp)
  | jar (disp : Byte) : JumpForm (.jar disp) 3 .auxRF (.short disp)

/-- IN dst,(C) (47_io.md R285): length, destination. -/
inductive InputForm : Instr → Nat → Loc8 → Prop
  | inR (r : R8) : InputForm (.inR r) 2 (.reg r)
  | inRx (xy : XY) (half : Half) : InputForm (.inRx xy half) 3 (.rx xy half)
  | inDa (addr : Word) : InputForm (.inDa addr) 5 (.mem (.da addr))
  | inX (base : XX) (dd : Word) : InputForm (.inX base dd) 5 (.mem (.x base dd))
  | inRa (disp : Word) : InputForm (.inRa disp) 5 (.mem (.ra disp))
  | inSr (dd : Word) : InputForm (.inSr dd) 5 (.mem (.sr dd))
  | inBx (pair : BX) : InputForm (.inBx pair) 3 (.mem (.bx pair))

/-- The block inputs (R288 to R291): width, direction, repeating. -/
inductive BlockInputForm : Instr → IoWidth → Dir → Bool → Prop
  | ini : BlockInputForm .ini .byte .inc false
  | iniw : BlockInputForm .iniw .word .inc false
  | ind : BlockInputForm .ind .byte .dec false
  | indw : BlockInputForm .indw .word .dec false
  | inir : BlockInputForm .inir .byte .inc true
  | inirw : BlockInputForm .inirw .word .inc true
  | indr : BlockInputForm .indr .byte .dec true
  | indrw : BlockInputForm .indrw .word .dec true

/-- LDCTL XX,(C) (48_cpu_control.md R310): length, destination. -/
inductive ReadControlForm : Instr → Nat → Reg16 → Prop
  | ldctlHlC : ReadControlForm .ldctlHlC 2 .hl
  | ldctlXyC (xy : XY) : ReadControlForm (.ldctlXyC xy) 3 (reg16OfXY xy)

/-- LDCTL (C),XX (R310): length, source. -/
inductive WriteControlForm : Instr → Nat → Reg16 → Prop
  | ldctlCHl : WriteControlForm .ldctlCHl 2 .hl
  | ldctlCXy (xy : XY) : WriteControlForm (.ldctlCXy xy) 3 (reg16OfXY xy)

/-- LDCTL XX,USP (R311): length, destination. -/
inductive ReadUspForm : Instr → Nat → Reg16 → Prop
  | ldctlHlUsp : ReadUspForm .ldctlHlUsp 2 .hl
  | ldctlXyUsp (xy : XY) : ReadUspForm (.ldctlXyUsp xy) 3 (reg16OfXY xy)

/-- LDCTL USP,XX (R311): length, source. -/
inductive WriteUspForm : Instr → Nat → Reg16 → Prop
  | ldctlUspHl : WriteUspForm .ldctlUspHl 2 .hl
  | ldctlUspXy (xy : XY) : WriteUspForm (.ldctlUspXy xy) 3 (reg16OfXY xy)

/-- One byte access to memory: space, kind, logical address (20_memory.md R64). -/
structure MemAccess where
  space : Space
  access : Access
  addr : Word
  deriving DecidableEq, Repr

/-- The byte access to a memory operand at its effective address (30_encoding.md R104, R105). -/
def MemOperand.at8 (len : Nat) (m : MemOperand) (s : State) (acc : Access) : List MemAccess :=
  [⟨operandSpace m s, acc, ea len m s⟩]

/-- The two byte accesses to a word memory operand, low byte first (30_encoding.md R106, R107, 20_memory.md R64, R73). -/
def MemOperand.at16 (len : Nat) (m : MemOperand) (s : State) (acc : Access) : List MemAccess :=
  [⟨operandSpace m s, acc, ea len m s⟩, ⟨operandSpace m s, acc, ea len m s + 1⟩]

/-- The accesses to a byte operand: none to a register. -/
def Loc8.at8 (len : Nat) (l : Loc8) (s : State) (acc : Access) : List MemAccess :=
  match l with
  | .reg _ => []
  | .rx _ _ => []
  | .mem m => m.at8 len s acc

/-- The reads of a byte source: none of a register or an immediate. -/
def Src8.reads (len : Nat) (x : Src8) (s : State) : List MemAccess :=
  match x with
  | .loc l => l.at8 len s .read
  | .imm _ => []

/-- The accesses to a word operand: none to a register. -/
def Loc16.at16 (len : Nat) (l : Loc16) (s : State) (acc : Access) : List MemAccess :=
  match l with
  | .reg _ => []
  | .mem m => m.at16 len s acc

/-- The reads of a word source: none of a register or an immediate. -/
def Src16.reads (len : Nat) (x : Src16) (s : State) : List MemAccess :=
  match x with
  | .loc l => l.at16 len s .read
  | .imm _ => []

/-- The two byte accesses to a word in the current data space, low byte first. -/
def State.wordAt (s : State) (acc : Access) (a : Word) : List MemAccess := [⟨s.curData, acc, a⟩, ⟨s.curData, acc, a + 1⟩]

/-- The accesses to memory operands, stack and block that an instruction begun in `s` makes, in order: reads before
writes, the low byte of a word first (20_memory.md R73, R75; log 15, 35). An instruction under no constructor makes
none. -/
inductive Accesses (s : State) : Instr → List MemAccess → Prop
  | load {i : Instr} {len : Nat} {dst : Loc8} {src : Src8} (h : LoadForm i len dst src) :
      Accesses s i (src.reads len s ++ dst.at8 len s .write)
  | exchange {i : Instr} {len : Nat} {src : Loc8} (h : ExchangeAForm i len src) :
      Accesses s i (src.at8 len s .read ++ src.at8 len s .write)
  | userLoad {i : Instr} {len : Nat} {k : Kind} {m : MemOperand} (h : UserLoadForm i len k m) :
      Accesses s i [⟨⟨.user, k⟩, .read, ea len m s⟩]
  | userStore {i : Instr} {len : Nat} {k : Kind} {m : MemOperand} (h : UserStoreForm i len k m) :
      Accesses s i [⟨⟨.user, k⟩, .write, ea len m s⟩]
  | stackTop {i : Instr} {len : Nat} {w : Reg16} (h : StackTopForm i len w) :
      Accesses s i (s.wordAt .read s.sp ++ s.wordAt .write s.sp)
  | loadWord {i : Instr} {len : Nat} {dst : Loc16} {nn : Word} (h : LoadWordForm i len dst nn) :
      Accesses s i (dst.at16 len s .write)
  | blockLoad {i : Instr} {d : Dir} {rep : Bool} (h : BlockLoadForm i d rep) :
      Accesses s i [⟨s.curData, .read, s.hl⟩, ⟨s.curData, .write, s.de⟩]
  | blockCompare {i : Instr} {d : Dir} {rep : Bool} (h : BlockCompareForm i d rep) :
      Accesses s i [⟨s.curData, .read, s.hl⟩]
  | alu8 {op : Alu8} {i : Instr} {len : Nat} {src : Src8} (h : Alu8Form op i len src) : Accesses s i (src.reads len s)
  | count8 {d : Dir} {i : Instr} {len : Nat} {dst : Loc8} (h : Count8Form d i len dst) :
      Accesses s i (dst.at8 len s .read ++ dst.at8 len s .write)
  | alu16 {op : Alu16} {i : Instr} {len : Nat} {src : Src16} (h : Alu16Form op i len src) :
      Accesses s i (src.reads len s)
  | count16 {d : Dir} {i : Instr} {len : Nat} {dst : Loc16} (h : Count16Form d i len dst) :
      Accesses s i (dst.at16 len s .read ++ dst.at16 len s .write)
  | bit {i : Instr} {len : Nat} {b : BitVec 3} {l : Loc8} (h : BitForm i len b l) : Accesses s i (l.at8 len s .read)
  | call {i : Instr} {len : Nat} {c : Cond} {m : MemOperand} (h : CallForm i len c m) (hc : c.holds s = true) :
      Accesses s i (s.wordAt .write (s.sp - 2))
  | input {i : Instr} {len : Nat} {dst : Loc8} (h : InputForm i len dst) : Accesses s i (dst.at8 len s .write)
  | blockInput {i : Instr} {d : Dir} {rep : Bool} (h : BlockInputForm i .byte d rep) :
      Accesses s i [⟨s.curData, .write, s.hl⟩]
  | blockInputWord {i : Instr} {d : Dir} {rep : Bool} (h : BlockInputForm i .word d rep) :
      Accesses s i (s.wordAt .write s.hl)

/-- One of the accesses an instruction begun in `s` makes. -/
def AccessOf (s : State) (i : Instr) (sp : Space) (acc : Access) (a : Word) : Prop :=
  ∃ l, Accesses s i l ∧ (⟨sp, acc, a⟩ : MemAccess) ∈ l

/-- The instructions that are privileged always: the first two rows of the table of 60_exceptions.md R340. -/
def alwaysPrivileged : Instr → Bool
  | .ldReg _ _ => false
  | .ldGRx _ _ _ => false
  | .ldRxRx _ _ _ => false
  | .ldRxG _ _ _ => false
  | .ldRHl _ => false
  | .ldRSx _ _ _ => false
  | .ldHlR _ => false
  | .ldSxR _ _ _ => false
  | .ldRN _ _ => false
  | .ldRxN _ _ _ => false
  | .ldHlN _ => false
  | .ldDaN _ _ => false
  | .ldXN _ _ _ => false
  | .ldSxN _ _ _ => false
  | .ldRaN _ _ => false
  | .ldSrN _ _ => false
  | .ldBxN _ _ => false
  | .ldAIr _ => false
  | .ldADa _ => false
  | .ldAX _ _ => false
  | .ldARa _ => false
  | .ldASr _ => false
  | .ldABx _ => false
  | .ldIrA _ => false
  | .ldDaA _ => false
  | .ldXA _ _ => false
  | .ldRaA _ => false
  | .ldSrA _ => false
  | .ldBxA _ => false
  | .exAR _ => false
  | .exARx _ _ => false
  | .exAHl => false
  | .exADa _ => false
  | .exAX _ _ => false
  | .exASx _ _ => false
  | .exARa _ => false
  | .exASr _ => false
  | .exABx _ => false
  | .exHL => false
  | .ldudAHl => true
  | .ldudASx _ _ => true
  | .ldudHlA => true
  | .ldudSxA _ _ => true
  | .ldupAHl => true
  | .ldupASx _ _ => true
  | .ldupHlA => true
  | .ldupSxA _ _ => true
  | .exDeHl => false
  | .exXyHl _ => false
  | .exAfAf => false
  | .exx => false
  | .exSpHl => false
  | .exSpXy _ => false
  | .ldaHlX _ _ => false
  | .ldaXyX _ _ _ => false
  | .ldaHlRa _ => false
  | .ldaXyRa _ _ => false
  | .ldaHlSr _ => false
  | .ldaXySr _ _ => false
  | .ldaHlBx _ => false
  | .ldaXyBx _ _ => false
  | .ldwRrN _ _ => false
  | .ldwXyN _ _ => false
  | .ldwHlN _ => false
  | .ldwDaN _ _ => false
  | .ldwRaN _ _ => false
  | .ldi => false
  | .ldd => false
  | .ldir => false
  | .lddr => false
  | .cpi => false
  | .cpd => false
  | .cpir => false
  | .cpdr => false
  | .adcAR _ => false
  | .adcARx _ _ => false
  | .adcAN _ => false
  | .adcAHl => false
  | .adcADa _ => false
  | .adcAX _ _ => false
  | .adcASx _ _ => false
  | .adcARa _ => false
  | .adcASr _ => false
  | .adcABx _ => false
  | .addAR _ => false
  | .addARx _ _ => false
  | .addAN _ => false
  | .addAHl => false
  | .addADa _ => false
  | .addAX _ _ => false
  | .addASx _ _ => false
  | .addARa _ => false
  | .addASr _ => false
  | .addABx _ => false
  | .andAR _ => false
  | .andARx _ _ => false
  | .andAN _ => false
  | .andAHl => false
  | .andADa _ => false
  | .andAX _ _ => false
  | .andASx _ _ => false
  | .andARa _ => false
  | .andASr _ => false
  | .andABx _ => false
  | .cpAR _ => false
  | .cpARx _ _ => false
  | .cpAN _ => false
  | .cpAHl => false
  | .cpADa _ => false
  | .cpAX _ _ => false
  | .cpASx _ _ => false
  | .cpARa _ => false
  | .cpASr _ => false
  | .cpABx _ => false
  | .cpl => false
  | .daa => false
  | .decR _ => false
  | .decRx _ _ => false
  | .decHl => false
  | .decDa _ => false
  | .decX _ _ => false
  | .decSx _ _ => false
  | .decRa _ => false
  | .decSr _ => false
  | .decBx _ => false
  | .divR _ => false
  | .divRx _ _ => false
  | .divN _ => false
  | .divHl => false
  | .divDa _ => false
  | .divX _ _ => false
  | .divSx _ _ => false
  | .divRa _ => false
  | .divSr _ => false
  | .divBx _ => false
  | .divuR _ => false
  | .divuRx _ _ => false
  | .divuN _ => false
  | .divuHl => false
  | .divuDa _ => false
  | .divuX _ _ => false
  | .divuSx _ _ => false
  | .divuRa _ => false
  | .divuSr _ => false
  | .divuBx _ => false
  | .extsA => false
  | .incR _ => false
  | .incRx _ _ => false
  | .incHl => false
  | .incDa _ => false
  | .incX _ _ => false
  | .incSx _ _ => false
  | .incRa _ => false
  | .incSr _ => false
  | .incBx _ => false
  | .adcHlRr _ => false
  | .adcXyRr _ _ => false
  | .addHlRr _ => false
  | .addXyRr _ _ => false
  | .addHlA => false
  | .addXyA _ => false
  | .addwRr _ => false
  | .addwXy _ => false
  | .addwN _ => false
  | .addwDa _ => false
  | .addwX _ _ => false
  | .addwRa _ => false
  | .addwHl => false
  | .cpwRr _ => false
  | .cpwXy _ => false
  | .cpwN _ => false
  | .cpwDa _ => false
  | .cpwX _ _ => false
  | .cpwRa _ => false
  | .cpwHl => false
  | .decwRr _ => false
  | .decwXy _ => false
  | .decwHl => false
  | .decwDa _ => false
  | .decwX _ _ => false
  | .decwRa _ => false
  | .divwRr _ => false
  | .divwXy _ => false
  | .divwN _ => false
  | .divwDa _ => false
  | .divwX _ _ => false
  | .divwRa _ => false
  | .divwHl => false
  | .divuwRr _ => false
  | .divuwXy _ => false
  | .divuwN _ => false
  | .divuwDa _ => false
  | .divuwX _ _ => false
  | .divuwRa _ => false
  | .divuwHl => false
  | .extsHl => false
  | .incwRr _ => false
  | .incwXy _ => false
  | .incwHl => false
  | .incwDa _ => false
  | .incwX _ _ => false
  | .incwRa _ => false
  | .bitR _ _ => false
  | .bitHl _ => false
  | .bitSx _ _ _ => false
  | .callCcHl _ => false
  | .callHl => false
  | .callCc _ _ => false
  | .callDa _ => false
  | .callCcRa _ _ => false
  | .callRa _ => false
  | .ccf => false
  | .djnz _ => false
  | .jpCcHl _ => false
  | .jpHl => false
  | .jpXy _ => false
  | .jpCc _ _ => false
  | .jpDa _ => false
  | .jpCcRa _ _ => false
  | .jpRa _ => false
  | .jrCc _ _ => false
  | .jr _ => false
  | .jaf _ => false
  | .jar _ => false
  | .inR _ => false
  | .inRx _ _ => false
  | .inDa _ => false
  | .inX _ _ => false
  | .inRa _ => false
  | .inSr _ => false
  | .inBx _ => false
  | .inAN _ => false
  | .inw => false
  | .ini => false
  | .iniw => false
  | .ind => false
  | .indw => false
  | .inir => false
  | .inirw => false
  | .indr => false
  | .indrw => false
  | .di => true
  | .diMask _ => true
  | .ei => true
  | .eiMask _ => true
  | .halt => true
  | .im0 => true
  | .im1 => true
  | .im2 => true
  | .im3 => true
  | .ldIA => true
  | .ldRfA => true
  | .ldAI => true
  | .ldARf => true
  | .ldctlHlC => true
  | .ldctlXyC _ => true
  | .ldctlCHl => true
  | .ldctlCXy _ => true
  | .ldctlHlUsp => true
  | .ldctlXyUsp _ => true
  | .ldctlUspHl => true
  | .ldctlUspXy _ => true

/-- The input instructions, which are privileged when the Inhibit User I/O bit is 1: the third row of the table of
60_exceptions.md R340. -/
def isInput : Instr → Bool
  | .ldReg _ _ => false
  | .ldGRx _ _ _ => false
  | .ldRxRx _ _ _ => false
  | .ldRxG _ _ _ => false
  | .ldRHl _ => false
  | .ldRSx _ _ _ => false
  | .ldHlR _ => false
  | .ldSxR _ _ _ => false
  | .ldRN _ _ => false
  | .ldRxN _ _ _ => false
  | .ldHlN _ => false
  | .ldDaN _ _ => false
  | .ldXN _ _ _ => false
  | .ldSxN _ _ _ => false
  | .ldRaN _ _ => false
  | .ldSrN _ _ => false
  | .ldBxN _ _ => false
  | .ldAIr _ => false
  | .ldADa _ => false
  | .ldAX _ _ => false
  | .ldARa _ => false
  | .ldASr _ => false
  | .ldABx _ => false
  | .ldIrA _ => false
  | .ldDaA _ => false
  | .ldXA _ _ => false
  | .ldRaA _ => false
  | .ldSrA _ => false
  | .ldBxA _ => false
  | .exAR _ => false
  | .exARx _ _ => false
  | .exAHl => false
  | .exADa _ => false
  | .exAX _ _ => false
  | .exASx _ _ => false
  | .exARa _ => false
  | .exASr _ => false
  | .exABx _ => false
  | .exHL => false
  | .ldudAHl => false
  | .ldudASx _ _ => false
  | .ldudHlA => false
  | .ldudSxA _ _ => false
  | .ldupAHl => false
  | .ldupASx _ _ => false
  | .ldupHlA => false
  | .ldupSxA _ _ => false
  | .exDeHl => false
  | .exXyHl _ => false
  | .exAfAf => false
  | .exx => false
  | .exSpHl => false
  | .exSpXy _ => false
  | .ldaHlX _ _ => false
  | .ldaXyX _ _ _ => false
  | .ldaHlRa _ => false
  | .ldaXyRa _ _ => false
  | .ldaHlSr _ => false
  | .ldaXySr _ _ => false
  | .ldaHlBx _ => false
  | .ldaXyBx _ _ => false
  | .ldwRrN _ _ => false
  | .ldwXyN _ _ => false
  | .ldwHlN _ => false
  | .ldwDaN _ _ => false
  | .ldwRaN _ _ => false
  | .ldi => false
  | .ldd => false
  | .ldir => false
  | .lddr => false
  | .cpi => false
  | .cpd => false
  | .cpir => false
  | .cpdr => false
  | .adcAR _ => false
  | .adcARx _ _ => false
  | .adcAN _ => false
  | .adcAHl => false
  | .adcADa _ => false
  | .adcAX _ _ => false
  | .adcASx _ _ => false
  | .adcARa _ => false
  | .adcASr _ => false
  | .adcABx _ => false
  | .addAR _ => false
  | .addARx _ _ => false
  | .addAN _ => false
  | .addAHl => false
  | .addADa _ => false
  | .addAX _ _ => false
  | .addASx _ _ => false
  | .addARa _ => false
  | .addASr _ => false
  | .addABx _ => false
  | .andAR _ => false
  | .andARx _ _ => false
  | .andAN _ => false
  | .andAHl => false
  | .andADa _ => false
  | .andAX _ _ => false
  | .andASx _ _ => false
  | .andARa _ => false
  | .andASr _ => false
  | .andABx _ => false
  | .cpAR _ => false
  | .cpARx _ _ => false
  | .cpAN _ => false
  | .cpAHl => false
  | .cpADa _ => false
  | .cpAX _ _ => false
  | .cpASx _ _ => false
  | .cpARa _ => false
  | .cpASr _ => false
  | .cpABx _ => false
  | .cpl => false
  | .daa => false
  | .decR _ => false
  | .decRx _ _ => false
  | .decHl => false
  | .decDa _ => false
  | .decX _ _ => false
  | .decSx _ _ => false
  | .decRa _ => false
  | .decSr _ => false
  | .decBx _ => false
  | .divR _ => false
  | .divRx _ _ => false
  | .divN _ => false
  | .divHl => false
  | .divDa _ => false
  | .divX _ _ => false
  | .divSx _ _ => false
  | .divRa _ => false
  | .divSr _ => false
  | .divBx _ => false
  | .divuR _ => false
  | .divuRx _ _ => false
  | .divuN _ => false
  | .divuHl => false
  | .divuDa _ => false
  | .divuX _ _ => false
  | .divuSx _ _ => false
  | .divuRa _ => false
  | .divuSr _ => false
  | .divuBx _ => false
  | .extsA => false
  | .incR _ => false
  | .incRx _ _ => false
  | .incHl => false
  | .incDa _ => false
  | .incX _ _ => false
  | .incSx _ _ => false
  | .incRa _ => false
  | .incSr _ => false
  | .incBx _ => false
  | .adcHlRr _ => false
  | .adcXyRr _ _ => false
  | .addHlRr _ => false
  | .addXyRr _ _ => false
  | .addHlA => false
  | .addXyA _ => false
  | .addwRr _ => false
  | .addwXy _ => false
  | .addwN _ => false
  | .addwDa _ => false
  | .addwX _ _ => false
  | .addwRa _ => false
  | .addwHl => false
  | .cpwRr _ => false
  | .cpwXy _ => false
  | .cpwN _ => false
  | .cpwDa _ => false
  | .cpwX _ _ => false
  | .cpwRa _ => false
  | .cpwHl => false
  | .decwRr _ => false
  | .decwXy _ => false
  | .decwHl => false
  | .decwDa _ => false
  | .decwX _ _ => false
  | .decwRa _ => false
  | .divwRr _ => false
  | .divwXy _ => false
  | .divwN _ => false
  | .divwDa _ => false
  | .divwX _ _ => false
  | .divwRa _ => false
  | .divwHl => false
  | .divuwRr _ => false
  | .divuwXy _ => false
  | .divuwN _ => false
  | .divuwDa _ => false
  | .divuwX _ _ => false
  | .divuwRa _ => false
  | .divuwHl => false
  | .extsHl => false
  | .incwRr _ => false
  | .incwXy _ => false
  | .incwHl => false
  | .incwDa _ => false
  | .incwX _ _ => false
  | .incwRa _ => false
  | .bitR _ _ => false
  | .bitHl _ => false
  | .bitSx _ _ _ => false
  | .callCcHl _ => false
  | .callHl => false
  | .callCc _ _ => false
  | .callDa _ => false
  | .callCcRa _ _ => false
  | .callRa _ => false
  | .ccf => false
  | .djnz _ => false
  | .jpCcHl _ => false
  | .jpHl => false
  | .jpXy _ => false
  | .jpCc _ _ => false
  | .jpDa _ => false
  | .jpCcRa _ _ => false
  | .jpRa _ => false
  | .jrCc _ _ => false
  | .jr _ => false
  | .jaf _ => false
  | .jar _ => false
  | .inR _ => true
  | .inRx _ _ => true
  | .inDa _ => true
  | .inX _ _ => true
  | .inRa _ => true
  | .inSr _ => true
  | .inBx _ => true
  | .inAN _ => true
  | .inw => true
  | .ini => true
  | .iniw => true
  | .ind => true
  | .indw => true
  | .inir => true
  | .inirw => true
  | .indr => true
  | .indrw => true
  | .di => false
  | .diMask _ => false
  | .ei => false
  | .eiMask _ => false
  | .halt => false
  | .im0 => false
  | .im1 => false
  | .im2 => false
  | .im3 => false
  | .ldIA => false
  | .ldRfA => false
  | .ldAI => false
  | .ldARf => false
  | .ldctlHlC => false
  | .ldctlXyC _ => false
  | .ldctlCHl => false
  | .ldctlCXy _ => false
  | .ldctlHlUsp => false
  | .ldctlXyUsp _ => false
  | .ldctlUspHl => false
  | .ldctlUspXy _ => false

end Sys2Proof.Machine
end

