-- ==== Sys2Proof/Frame.lean ====
section
/-! DEFINITION. The words in which the statements say what an instruction changes and what it leaves alone: every
register of 10_state.md under one name, the six flags, physical memory, the I/O trace and the end of the instruction. -/

namespace Sys2Proof.Machine

/-- The registers of 10_state.md R30 to R51 but F and PC: the byte registers of the bank in use and of the other one,
the halves of the index registers, both stack pointers, I, R, the control registers and the two bank selectors. -/
inductive Reg
  | r8 (r : R8)
  | alt (r : R8)
  | half (q : XY) (h : Half)
  | ssp | usp
  | i | r
  | msr | isr | itvtp | slr | iop | tcr | bti | btc | ccr | lar
  | afSel | rfSel
  deriving DecidableEq, Repr

/-- The byte registers of the bank not in use: A', B', C', D', E', H', L' (R32). -/
def State.altReg8 (s : State) : R8 → Byte
  | .b => hiByte s.gpAlt.bc
  | .c => loByte s.gpAlt.bc
  | .d => hiByte s.gpAlt.de
  | .e => loByte s.gpAlt.de
  | .h => hiByte s.gpAlt.hl
  | .l => loByte s.gpAlt.hl
  | .a => s.afAlt.a

/-- The addresses of the control registers, as LDCTL finds them in C (10_state.md R44, 48_cpu_control.md R309). -/
def controlTable : List (Byte × Reg) :=
  [ (0x00, .msr), (0x02, .btc), (0x04, .slr), (0x06, .itvtp), (0x08, .iop), (0x10, .tcr), (0x12, .ccr), (0x14, .lar),
    (0x16, .isr), (0xFF, .bti) ]

/-- What a register holds, as a number. -/
def State.look (s : State) : Reg → Nat
  | .r8 r => (s.reg8 r).toNat
  | .alt r => (s.altReg8 r).toNat
  | .half q h => (s.half q h).toNat
  | .ssp => s.ssp.toNat
  | .usp => s.usp.toNat
  | .i => s.i.toNat
  | .r => s.r.toNat
  | .msr => s.msr.toNat
  | .isr => s.isr.toNat
  | .itvtp => s.itvtp.toNat
  | .slr => s.slr.toNat
  | .iop => s.iop.toNat
  | .tcr => s.tcr.toNat
  | .bti => s.bti.toNat
  | .btc => s.btc.toNat
  | .ccr => s.ccr.toNat
  | .lar => s.lar.toNat
  | .afSel => s.afSel.toNat
  | .rfSel => s.rfSel.toNat

/-- Every register but those of the list holds what it held, and so do F', `halted`, the MMU's fault latch and the
parameters of the run. F, PC, `ei_shadow`, memory and the I/O trace are said separately. -/
def Unchanged (but : List Reg) (s t : State) : Prop :=
  (∀ g : Reg, g ∉ but → t.look g = s.look g)
    ∧ t.afAlt.f = s.afAlt.f ∧ t.halted = s.halted ∧ t.mmuLatch = s.mmuLatch ∧ t.cfg = s.cfg

/-- All eight bits of F are as before: "No flags affected" (00_scope.md R18). -/
def SameFlags (s t : State) : Prop := t.f = s.f

/-- The six flags have the given values. Bits 5 and 3 of F are left unsaid: they are unconstrained after an instruction
that writes a flag (R18). -/
def FlagsAre (t : State) (sign zero half overflow subtract carry : Bool) : Prop :=
  t.f.s = sign ∧ t.f.z = zero ∧ t.f.h = half ∧ t.f.pv = overflow ∧ t.f.n = subtract ∧ t.f.c = carry

/-- Every byte of physical memory is as before, and none counts as newly written (20_memory.md R69, R82). -/
def SameMemory (s t : State) : Prop :=
  (∀ q : PhysAddr, t.mem.get q = s.mem.get q) ∧ ∀ q : PhysAddr, t.wasWritten q = s.wasWritten q

/-- The byte at `p` is now `b`, every other byte is as before, and `p` alone counts as newly written. -/
def StoredByte (p : PhysAddr) (b : Byte) (s t : State) : Prop :=
  t.mem.get p = b
    ∧ (∀ q : PhysAddr, q ≠ p → t.mem.get q = s.mem.get q)
    ∧ ∀ q : PhysAddr, t.wasWritten q = (decide (q = p) || s.wasWritten q)

/-- The two bytes at `p` and `p'` are now `lo` and `hi` (where `p'` is `p`, the byte is `hi`, stored last), every other byte
is as before, and those two alone count as newly written. -/
def StoredWord (p p' : PhysAddr) (lo hi : Byte) (s t : State) : Prop :=
  t.mem.get p' = hi
    ∧ (p ≠ p' → t.mem.get p = lo)
    ∧ (∀ q : PhysAddr, q ≠ p → q ≠ p' → t.mem.get q = s.mem.get q)
    ∧ ∀ q : PhysAddr, t.wasWritten q = (decide (q = p) || decide (q = p') || s.wasWritten q)

/-- No input transaction has happened. -/
def SameTrace (s t : State) : Prop := t.ioTrace = s.ioTrace

/-- The instruction has completed and goes on to the next one: PC is past its bytes, modulo 2^16 (00_scope.md R16), and
`ei_shadow` is 0 (48_cpu_control.md R301). -/
def Completed (len : Nat) (s t : State) : Prop := t.pc = s.pc + BitVec.ofNat 16 len ∧ t.eiShadow = false

/-- The registers that a byte operand is. -/
def Loc8.regs : Loc8 → List Reg
  | .reg r => [.r8 r]
  | .rx q h => [.half q h]
  | .mem _ => []

/-- The registers that a 16-bit register operand is; `SP` is the stack pointer in use (10_state.md R34). -/
def Reg16.regs (s : State) : Reg16 → List Reg
  | .bc => [.r8 .b, .r8 .c]
  | .de => [.r8 .d, .r8 .e]
  | .hl => [.r8 .h, .r8 .l]
  | .sp =>
    match s.mode with
    | .system => [.ssp]
    | .user => [.usp]
  | .ix => [.half .ix .hi, .half .ix .lo]
  | .iy => [.half .iy .hi, .half .iy .lo]

/-- The registers that a word operand is. -/
def Loc16.regs (s : State) : Loc16 → List Reg
  | .reg w => w.regs s
  | .mem _ => []

/-- The byte operand can be written: a register, or memory whose address translates for writing to a byte that is there
(20_memory.md R64). -/
def Writable8 (len : Nat) (dst : Loc8) (s : State) : Prop :=
  match dst with
  | .reg _ => True
  | .rx _ _ => True
  | .mem m => ∃ p, s.reach (operandSpace m s) .write (ea len m s) = .ok p

/-- The operand `dst` of an instruction begun in `s` now holds `v`, and memory is otherwise as before: for a memory
operand, the byte written is the one its effective address in `s` reaches (30_encoding.md R105). -/
def Wrote8 (len : Nat) (dst : Loc8) (v : Byte) (s t : State) : Prop :=
  match dst with
  | .reg r => t.reg8 r = v ∧ SameMemory s t
  | .rx q h => t.half q h = v ∧ SameMemory s t
  | .mem m => ∀ p, s.reach (operandSpace m s) .write (ea len m s) = .ok p → StoredByte p v s t

/-- The word operand can be written: a register, or memory whose two bytes can be written. -/
def Writable16 (len : Nat) (dst : Loc16) (s : State) : Prop :=
  match dst with
  | .reg _ => True
  | .mem m =>
    (∃ p, s.reach (operandSpace m s) .write (ea len m s) = .ok p)
      ∧ ∃ p', s.reach (operandSpace m s) .write (ea len m s + 1) = .ok p'

/-- The operand `dst` of an instruction begun in `s` now holds the word `v`, low byte at the effective address and high
byte at the next one, modulo 2^16 (20_memory.md R61, R70, 30_encoding.md R107), and memory is otherwise as before. -/
def Wrote16 (len : Nat) (dst : Loc16) (v : Word) (s t : State) : Prop :=
  match dst with
  | .reg w => t.reg16 w = v ∧ SameMemory s t
  | .mem m =>
    ∀ p p', s.reach (operandSpace m s) .write (ea len m s) = .ok p →
      s.reach (operandSpace m s) .write (ea len m s + 1) = .ok p' →
      StoredWord p p' (v.setWidth 8) ((v >>> 8).setWidth 8) s t

end Sys2Proof.Machine
end

