-- ==== Sys2Proof/Safety.lean ====
section
/-! DEFINITION. What counts as a safe run and as its end (70_reset_and_hazards.md R371, R374), the eight kinds of trap
(60_exceptions.md R330, R332), and the invariant of the state. -/

namespace Sys2Proof.Machine

/-! ### Traps -/

/-- "The Z280 MPU supports eight kinds of traps" (R330), by the names of R332. -/
inductive TrapKind
  | divisionException
  | extendedInstruction
  | privilegedInstruction
  | systemCall
  | accessViolation
  | systemStackOverflowWarning
  | singleStep
  | breakpointOnHalt
  deriving DecidableEq, Repr

/-- Whether a trap has an enable bit (R330). -/
def TrapKind.maskable : TrapKind → Bool
  | .divisionException => false
  | .extendedInstruction => true
  | .privilegedInstruction => false
  | .systemCall => false
  | .accessViolation => false
  | .systemStackOverflowWarning => true
  | .singleStep => true
  | .breakpointOnHalt => true

/-- The kind of a fault (R332). No fault is an Extended Instruction trap or a System Call: no instruction of the table
raises one (R323, R337). -/
def Fault.kind : Fault → TrapKind
  | .divisionException _ _ => .divisionException
  | .accessViolation _ _ => .accessViolation
  | .systemStackOverflowWarning _ => .systemStackOverflowWarning
  | .privilegedInstruction _ => .privilegedInstruction
  | .breakpointOnHalt _ => .breakpointOnHalt
  | .singleStep => .singleStep

/-- The state at a fault (R331); none where it is not specified (R342). -/
def Fault.state : Fault → Option State
  | .divisionException _ s => some s
  | .accessViolation _ s => some s
  | .systemStackOverflowWarning s => some s
  | .privilegedInstruction s => some s
  | .breakpointOnHalt s => some s
  | .singleStep => none

/-! ### Runs -/

/-- `n` steps, ended by a fault or a refusal if one comes first. -/
def run : Nat → State → Out
  | 0, s => .next s
  | n + 1, s =>
    match step s with
    | .next t => run n t
    | .fault f => .fault f
    | .refused r => .refused r

/-- One instruction executed `n` times over, ended by a fault or a refusal if one comes first: the iterations of a
repeating block instruction (42_block.md R178). -/
def repeatExec (i : Instr) : Nat → State → Out
  | 0, s => .next s
  | n + 1, s =>
    match exec i s with
    | .next t => repeatExec i n t
    | .fault f => .fault f
    | .refused r => .refused r

/-- A launch state: "the empty I/O trace and empty `written` set" (R371). Every other component of `InitialState` may
hold anything. -/
def State.initial (s : State) : Bool := s.ioTrace.isEmpty && s.written.isEmpty

/-- A final state: `halted` = 1 and no fault or refusal recorded (R374). -/
def State.final (s : State) : Bool := s.halted

/-- The run that begins from the launch state `s` ends in `t` (R371, R374). -/
def EndsIn (s t : State) : Prop := s.initial = true ∧ t.final = true ∧ ∃ n, run n s = .next t

/-- `s` is a launch state, and the run from it never faults and is never refused: "a faulted or refused state is never
final" (R371). -/
def SafeRun (s : State) : Prop := s.initial = true ∧ ∀ n, ∃ t, run n s = .next t

/-! ### The launch premises (70_reset_and_hazards.md R371)

L-NOFAULT holds of every state, since a fault or a refusal is no state; L-QUIET holds of every run, since no interrupt
arrives (log 8). -/

/-- L-SYS. -/
def State.premiseSys (s : State) : Bool := decide (s.mode = .system)

/-- L-NOSS. -/
def State.premiseNoSs (s : State) : Bool := !s.msr.getLsbD s.cfg.msrSS

/-- L-NOBH. -/
def State.premiseNoBh (s : State) : Bool := !s.msr.getLsbD s.cfg.msrBH

/-- L-RUN. -/
def State.premiseRun (s : State) : Bool := !s.halted && !s.eiShadow

/-- L-CODE: the bytes of `code` are in memory from the address `a` on, in the program space of the launch mode. -/
def State.premiseCode (s : State) (a : Word) (code : List Byte) : Prop :=
  ∀ (k : Nat) (h : k < code.length),
    ∃ p : PhysAddr, s.translateAt s.curProg .fetch (a + BitVec.ofNat 16 k) = .phys p ∧ s.mem.get p = code[k]

/-- L-MMU: every entry of the translation is the identity's, so `Translate` is the identity and never a violation. -/
def State.premiseMmu (s : State) : Bool :=
  s.cfg.translate.all fun e => decide (e.result = .phys (e.addr.setWidth 24))

/-- L-NOWARN. -/
def State.premiseNoWarn (s : State) : Bool := s.cfg.stackWarn.isEmpty || !s.tcr.getLsbD s.cfg.tcrS

/-- L-BUS. -/
def State.premiseBus (s : State) : Bool := s.cfg.bus16

/-- A launch state under all the shared launch premises (R371) but L-CODE, which names a program. -/
def State.launchable (s : State) : Bool :=
  s.initial && s.premiseSys && s.premiseNoSs && s.premiseNoBh && s.premiseRun && s.premiseMmu && s.premiseNoWarn
    && s.premiseBus

/-! ### The invariant -/

/-- A byte transaction moved eight bits (47_io.md R281). -/
def IoEvent.wf (e : IoEvent) : Bool :=
  match e.width with
  | .byte => decide (e.value.toNat < 256)
  | .word => true

/-- The state is in its canonical form: memory and the written set are lists with strictly rising addresses of 24 bits,
no listed byte is one an unlisted address reads as, and no byte transaction of the trace moved more than a byte. -/
def State.inv (s : State) : Bool := s.mem.wf && addrsWf 0 s.written && s.ioTrace.all IoEvent.wf

end Sys2Proof.Machine
end

