-- ==== Sys2Proof/Certificates/Slice0/Obligations.lean ====
section
/-! DEFINITION. The statements for the provers. OBLIGATIONS.json says of each which rules it states. -/

open Sys2Proof Sys2Proof.Machine

/-! ### Encoding -/

/-- Decoding the bytes the encoder writes for a well-formed instruction gives that instruction back, whatever its
operands, and leaves the bytes after it (30_encoding.md R91, R116). -/
def Obligations.DecodeEncodeRoundTrip : Prop :=
  ∀ i : Instr, i.wellFormed = true → ∀ rest : List Byte, decode (encode i ++ rest) = .ok i rest

/-- Every sequence of bytes that decodes has one meaning: it is the encoding of the instruction it decodes to, followed by
the bytes left over (R92: "Two rows never match the same bytes"). -/
def Obligations.EncodeDecodeRoundTrip : Prop :=
  ∀ (bs rest : List Byte) (i : Instr), decode bs = .ok i rest → encode i ++ rest = bs

/-- Words written out from the encoding tables decode to the instructions they stand for: one for each opcode page. -/
def Obligations.DecodedWords : Prop :=
  decode [0x78] = .ok (.ldReg .a .b) []
    ∧ decode [0xDD, 0x3E, 0x00, 0x20, 0x33] = .ok (.ldDaN 0x2000 0x33) []
    ∧ decode [0xFD, 0x77, 0x7F] = .ok (.ldSxR .iy .a 0x7F) []
    ∧ decode [0xED, 0x4A] = .ok (.adcHlRr .bc) []
    ∧ decode [0xFD, 0xED, 0xFA, 0x06, 0x00] = .ok (.divwN 6) []
    ∧ decode [0xCB, 0x4F] = .ok (.bitR 1 .a) []
    ∧ decode [0xDD, 0xCB, 0x05, 0x46] = .ok (.bitSx .ix 5 0) []
    ∧ decode [0x00] = .unassigned
    ∧ decode [0xDD, 0xDD] = .unassigned

/-! ### The step -/

/-- Where the bytes at the program counter are the encoding of a well-formed instruction, the step is the meaning of that
instruction at that state: nothing else is done around it (60_exceptions.md R343). -/
def Obligations.StepRunsDecodedInstruction : Prop :=
  ∀ (s : State) (i : Instr), i.wellFormed = true → s.halted = false → s.msr.getLsbD s.cfg.msrSS = false →
    (∀ (k : Nat) (h : k < (encode i).length), s.fetchByte k = .byte ((encode i)[k])) →
    step s = exec i s

/-- Where the bytes fetched so far decide nothing, the fetch of the next byte ends the step as the rules say: a
violation is the Access Violation trap at the instruction's start (20_memory.md R67), memory that is not there is
refused (R69), a byte written since launch is refused (R82), and a byte after which no row begins so is refused
(30_encoding.md R118). That the trap ends the run is the spec's decision D1 (log 7); each refusal is a decision of the
spec too: for absent memory D6 (log 12), for written code D8 (log 14), for bytes that no row begins with D9 and D25
(log 39). -/
def Obligations.FetchStops : Prop :=
  ∀ (s : State) (bs : List Byte), s.halted = false → s.msr.getLsbD s.cfg.msrSS = false →
    (∀ (k : Nat) (h : k < bs.length), s.fetchByte k = .byte (bs[k])) →
    (∀ k : Nat, k ≤ bs.length → decode (bs.take k) = .short) →
    (∀ wp valid : Bool,
        s.translateAt s.curProg .fetch (s.pc + BitVec.ofNat 16 bs.length) = .violation wp valid →
        ∃ f : State, step s = .fault (.accessViolation
            { space := s.curProg, access := .fetch, addr := s.pc + BitVec.ofNat 16 bs.length,
              wp := wp, valid := valid } f)
          ∧ { f with mmuLatch := s.mmuLatch } = s)
      ∧ (∀ p : PhysAddr, s.translateAt s.curProg .fetch (s.pc + BitVec.ofNat 16 bs.length) = .phys p →
        (s.isMemory p = false → step s = .refused .noMemoryThere)
          ∧ (s.isMemory p = true → s.wasWritten p = true → step s = .refused .writtenCodeFetched)
          ∧ (s.isMemory p = true → s.wasWritten p = false → decode (bs ++ [s.mem.get p]) = .unassigned →
            step s = .refused .unassignedEncoding))

/-- A halted machine does not move (60_exceptions.md R352), and a step begun with the Single-Step bit set ends with the
Single Step trap, before the fetch (R342, R343). These are decisions of the spec: that the halted step answers the same
state D16 (log 25), that a step begun with the bit set is the fault D29 (log 24), and that it comes before the fetch D21
(log 34). -/
def Obligations.HaltedAndSingleStep : Prop :=
  (∀ s : State, s.halted = true → step s = .next s)
    ∧ ∀ s : State, s.halted = false → s.msr.getLsbD s.cfg.msrSS = true → step s = .fault .singleStep

/-- Every step keeps the state in its canonical form. The canonical form is the model's own (log 3). -/
def Obligations.StepKeepsInvariant : Prop :=
  ∀ s t : State, s.inv = true → step s = .next t → t.inv = true

/-- The state after reset is in canonical form and is a launch state under every shared launch premise that names no
program (70_reset_and_hazards.md R371): a program placed in it can run. The values are the model's (log 1, 2, 3, 4). -/
def Obligations.ResetState : Prop :=
  State.reset.inv = true ∧ State.reset.launchable = true ∧ State.reset.cfg.wf = true
    ∧ ∀ p : PhysAddr, State.reset.mem.get p = 0

/-- What user mode may not do (60_exceptions.md R350): no step begun in user mode changes MSR, another control register, I,
R or the system stack pointer, halts, leaves user mode, or performs an input where the Inhibit User I/O bit is 1. -/
def Obligations.UserModeConfined : Prop :=
  ∀ s t : State, s.mode = .user → step s = .next t →
    t.mode = .user ∧ t.halted = s.halted
      ∧ (∀ g ∈ [Reg.ssp, .i, .r, .msr, .isr, .itvtp, .slr, .iop, .tcr, .bti, .btc, .ccr, .lar], t.look g = s.look g)
      ∧ (s.tcr.getLsbD s.cfg.tcrI = true → t.ioTrace = s.ioTrace)

/-- No step that answers a next state changes the parameters of the run (20_memory.md R66, 70_reset_and_hazards.md R380)
or the MMU's latch, which only an Access Violation writes (20_memory.md R67, R68); the I/O trace only grows (47_io.md
R281); the set of written addresses only grows, and a byte that a step changes is in it (20_memory.md R82). Three of these
are the model's choices: that the parameters are constant, the spec's decision D5 (log 4, 11), what the latch is
(log 18), and the set of written addresses, the spec's decision D8 (log 14). -/
def Obligations.StepIsMonotone : Prop :=
  ∀ s t : State, step s = .next t →
    t.cfg = s.cfg ∧ t.mmuLatch = s.mmuLatch ∧ s.ioTrace <+: t.ioTrace
      ∧ (∀ p : PhysAddr, s.wasWritten p = true → t.wasWritten p = true)
      ∧ (s.mem.wf = true → ∀ p : PhysAddr, t.mem.get p ≠ s.mem.get p → t.wasWritten p = true)

/-! ### Traps and refusals -/

/-- A privileged instruction in user mode, and an input in user mode with the Inhibit User I/O bit set, raise the
Privileged Instruction trap before anything else, with nothing changed but PC, which the rule leaves open
(60_exceptions.md R331 (c), R340, R343). That the run ends there is the spec's decision D1, the order its decision
D21 (log 7, 34). -/
def Obligations.PrivilegedTrapsInUserMode : Prop :=
  ∀ (i : Instr) (s : State), s.mode = .user →
    (alwaysPrivileged i = true ∨ (isInput i = true ∧ s.tcr.getLsbD s.cfg.tcrI = true)) →
    ∃ f : State, exec i s = .fault (.privilegedInstruction f)
      ∧ { f with pc := s.pc, freeCount := s.freeCount } = s

/-- An Access Violation leaves every register, PC included, and memory as they were at the start of the instruction
or iteration; only the MMU's latch is set, and input transactions already performed stay in the trace (20_memory.md
R67, 60_exceptions.md R331 (a)). That the run ends there is the spec's decision D1, and that memory is unchanged its
decision D4; what the latch holds is open, and named by a constant without a value (log 7, 15, 18). -/
def Obligations.AccessViolationRestores : Prop :=
  ∀ (s f : State) (v : Violation),
    (step s = .fault (.accessViolation v f) →
      f.mmuLatch = Config.latchedPart v.addr ∧ { f with mmuLatch := s.mmuLatch, ioTrace := s.ioTrace } = s
        ∧ ∃ l : List IoEvent, f.ioTrace = s.ioTrace ++ l ∧ l.length ≤ 1)
      ∧ ∀ i : Instr, isInput i = false → exec i s = .fault (.accessViolation v f) → f.ioTrace = s.ioTrace

/-- Which instruction raises which trap: the rows of the table of 60_exceptions.md R332; Extended Instruction and System
Call are never raised. An Access Violation is one that `Translate` reports for an access of the instruction; and
conversely, but for LDUD and LDUP, an instruction with such an access never completes, and where the accesses before it
succeed (and no input is inhibited or refused) it raises the trap for that access, with the registers and memory as at
the start and the MMU's latch written (20_memory.md R67, 60_exceptions.md R336). That a trap ends the run is the spec's
decision D1 (log 7), the order of an instruction's checks and accesses its decisions D4, D21 and D27 (log 15, 34, 35),
and what the latch takes is open (log 18). -/
def Obligations.TrapsByInstruction : Prop :=
  (∀ (i : Instr) (s : State) (f : Fault), exec i s = .fault f →
    (f.kind = .divisionException ∧
        ((∃ len src, Alu8Form .div i len src ∨ Alu8Form .divu i len src)
          ∨ ∃ len src, Alu16Form .divw i len src ∨ Alu16Form .divuw i len src))
      ∨ (f.kind = .systemStackOverflowWarning ∧ s.mode = .system ∧ ∃ len c m, CallForm i len c m)
      ∨ (f.kind = .privilegedInstruction ∧ s.mode = .user
        ∧ (alwaysPrivileged i = true ∨ (isInput i = true ∧ s.tcr.getLsbD s.cfg.tcrI = true)))
      ∨ (f.kind = .breakpointOnHalt ∧ s.mode = .system ∧ i = .halt)
      ∨ (∃ v g, f = .accessViolation v g ∧ AccessOf s i v.space v.access v.addr
        ∧ s.translateAt v.space v.access v.addr = .violation v.wp v.valid))
    ∧ ∀ (i : Instr) (s : State) (before after : List MemAccess) (x : MemAccess) (wp valid : Bool),
      Accesses s i (before ++ x :: after) →
      (∀ (len : Nat) (k : Kind) (m : MemOperand), ¬UserLoadForm i len k m ∧ ¬UserStoreForm i len k m) →
      s.translateAt x.space x.access x.addr = .violation wp valid →
      (∀ t : State, exec i s ≠ .next t)
        ∧ (¬(isInput i = true ∧ s.mode = .user ∧ s.tcr.getLsbD s.cfg.tcrI = true) →
          ¬(s.cfg.bus16 = false ∧ s.iop ≠ 0xFE ∧ s.iop ≠ 0xFF ∧ ∃ d rep, BlockInputForm i .word d rep) →
          (∀ y ∈ before, ∃ p : PhysAddr, s.reach y.space y.access y.addr = .ok p) →
          ∃ f : State, exec i s = .fault (.accessViolation
              { space := x.space, access := x.access, addr := x.addr, wp := wp, valid := valid } f)
            ∧ f.mmuLatch = Config.latchedPart x.addr
            ∧ { f with mmuLatch := s.mmuLatch, ioTrace := s.ioTrace } = s)

/-- An instruction is refused only so: one of its own accesses translates to a physical address that `MemMap` does not
back (20_memory.md R64, R69); DI or EI has a mask with bit 7 set (48_cpu_control.md R301, R302); LDCTL has no listed
address in C, or would write ISR (R309); DAA matches no row of its table (43_arith8.md R196); or a word is input from an
external page on an 8-bit bus (47_io.md R283, R288). The refusals are the spec's decisions D6, D11, D12, D13 and D24
(log 12, 17, 22, 23, 28). -/
def Obligations.RefusalsByInstruction : Prop :=
  ∀ (i : Instr) (s : State) (r : Refusal), exec i s = .refused r →
    (r = .noMemoryThere ∧ ∃ (sp : Space) (acc : Access) (a : Word) (p : PhysAddr), AccessOf s i sp acc a
        ∧ s.translateAt sp acc a = .phys p ∧ s.isMemory p = false)
      ∨ (r = .maskBitSeven ∧ s.mode = .system ∧ ∃ m : Byte, m.getLsbD 7 = true ∧ (i = .diMask m ∨ i = .eiMask m))
      ∨ (r = .noControlRegister ∧ s.mode = .system
        ∧ s.reg8 .c ∉ [(0x00 : Byte), 0x02, 0x04, 0x06, 0x08, 0x10, 0x12, 0x14, 0x16, 0xFF]
        ∧ ∃ len w, ReadControlForm i len w ∨ WriteControlForm i len w)
      ∨ (r = .interruptStatusWrite ∧ s.mode = .system ∧ s.reg8 .c = 0x16 ∧ ∃ len w, WriteControlForm i len w)
      ∨ (r = .daaOutsideTable ∧ i = .daa ∧ ∀ row ∈ daaTable, row.hits s.f s.a = false)
      ∨ (r = .wordInputOnByteBus ∧ s.cfg.bus16 = false ∧ s.iop ≠ 0xFE ∧ s.iop ≠ 0xFF
        ∧ ∃ d rep, BlockInputForm i .word d rep)

/-! ### Operands and flag helpers -/

/-- The adders and subtracters of 00_scope.md R17: the sum or difference modulo 2^8 or 2^16, the carries or borrows, and
overflow as the exact signed result falling outside the range of the operands. -/
def Obligations.AddersAndSubtractersAreExact : Prop :=
  (∀ (a b : Byte) (cin : Bool),
      (add8 a b cin).res.toNat = (a.toNat + b.toNat + cin.toNat) % 256
        ∧ ((add8 a b cin).s = true ↔ (add8 a b cin).res.toInt < 0)
        ∧ ((add8 a b cin).z = true ↔ (a.toNat + b.toNat + cin.toNat) % 256 = 0)
        ∧ ((add8 a b cin).h = true ↔ 16 ≤ a.toNat % 16 + b.toNat % 16 + cin.toNat)
        ∧ ((add8 a b cin).v = true ↔
          a.toInt + b.toInt + cin.toNat < -128 ∨ 127 < a.toInt + b.toInt + cin.toNat)
        ∧ (add8 a b cin).n = false
        ∧ ((add8 a b cin).c = true ↔ 256 ≤ a.toNat + b.toNat + cin.toNat))
    ∧ (∀ (a b : Word) (cin : Bool),
      (add16 a b cin).res.toNat = (a.toNat + b.toNat + cin.toNat) % 65536
        ∧ ((add16 a b cin).s = true ↔ (add16 a b cin).res.toInt < 0)
        ∧ ((add16 a b cin).z = true ↔ (a.toNat + b.toNat + cin.toNat) % 65536 = 0)
        ∧ ((add16 a b cin).h = true ↔ 4096 ≤ a.toNat % 4096 + b.toNat % 4096 + cin.toNat)
        ∧ ((add16 a b cin).v = true ↔
          a.toInt + b.toInt + cin.toNat < -32768 ∨ 32767 < a.toInt + b.toInt + cin.toNat)
        ∧ (add16 a b cin).n = false
        ∧ ((add16 a b cin).c = true ↔ 65536 ≤ a.toNat + b.toNat + cin.toNat))
    ∧ (∀ (a b : Byte) (bin : Bool),
      (((sub8 a b bin).res.toNat : Int) = (a.toNat - b.toNat - bin.toNat : Int) % 256)
        ∧ ((sub8 a b bin).s = true ↔ (sub8 a b bin).res.toInt < 0)
        ∧ ((sub8 a b bin).z = true ↔ (a.toNat - b.toNat - bin.toNat : Int) % 256 = 0)
        ∧ ((sub8 a b bin).h = true ↔ a.toNat % 16 < b.toNat % 16 + bin.toNat)
        ∧ ((sub8 a b bin).v = true ↔
          a.toInt - b.toInt - bin.toNat < -128 ∨ 127 < a.toInt - b.toInt - bin.toNat)
        ∧ (sub8 a b bin).n = true
        ∧ ((sub8 a b bin).c = true ↔ a.toNat < b.toNat + bin.toNat))
    ∧ ∀ (a b : Word) (bin : Bool),
      (((sub16 a b bin).res.toNat : Int) = (a.toNat - b.toNat - bin.toNat : Int) % 65536)
        ∧ ((sub16 a b bin).s = true ↔ (sub16 a b bin).res.toInt < 0)
        ∧ ((sub16 a b bin).z = true ↔ (a.toNat - b.toNat - bin.toNat : Int) % 65536 = 0)
        ∧ ((sub16 a b bin).h = true ↔ a.toNat % 4096 < b.toNat % 4096 + bin.toNat)
        ∧ ((sub16 a b bin).v = true ↔
          a.toInt - b.toInt - bin.toNat < -32768 ∨ 32767 < a.toInt - b.toInt - bin.toNat)
        ∧ (sub16 a b bin).n = true
        ∧ ((sub16 a b bin).c = true ↔ a.toNat < b.toNat + bin.toNat)

/-- The effective address of every addressing mode, as a number modulo 2^16 (30_encoding.md R102, R103): `d` is
signed, the base of mode RA is the address after the whole instruction. That sums wrap is the spec's decision D3, the
base of data operands in mode RA its decision D19 (log 29, 31). -/
def Obligations.EffectiveAddresses : Prop :=
  ∀ (len : Nat) (s : State),
    (ea len (.ir .bc) s = s.bc ∧ ea len (.ir .de) s = s.de ∧ ea len (.ir .hl) s = s.hl
        ∧ ea len (.ir .ix) s = s.ix ∧ ea len (.ir .iy) s = s.iy)
      ∧ (∀ addr : Word, ea len (.da addr) s = addr)
      ∧ (∀ dd : Word, (ea len (.x .ix dd) s).toNat = (s.ix.toNat + dd.toNat) % 65536
        ∧ (ea len (.x .iy dd) s).toNat = (s.iy.toNat + dd.toNat) % 65536
        ∧ (ea len (.x .hl dd) s).toNat = (s.hl.toNat + dd.toNat) % 65536
        ∧ (ea len (.sr dd) s).toNat = (s.sp.toNat + dd.toNat) % 65536
        ∧ (ea len (.ra dd) s).toNat = (s.pc.toNat + len + dd.toNat) % 65536)
      ∧ (∀ d : Byte, ((ea len (.sx .ix d) s).toNat : Int) = (s.ix.toNat + d.toInt) % 65536
        ∧ ((ea len (.sx .iy d) s).toNat : Int) = (s.iy.toNat + d.toInt) % 65536)
      ∧ (ea len (.bx .hlIx) s).toNat = (s.hl.toNat + s.ix.toNat) % 65536
      ∧ (ea len (.bx .hlIy) s).toNat = (s.hl.toNat + s.iy.toNat) % 65536
      ∧ (ea len (.bx .ixIy) s).toNat = (s.ix.toNat + s.iy.toNat) % 65536

/-- A word is stored low byte first, at any address, the byte after FFFF being 0000, and reads back whole: under the
default translation and memory map (20_memory.md R61, R64, R66, R69, R70, R72). That the high byte of a word at FFFF
is at 0000 is the spec's decision D3 (log 29). -/
def Obligations.WordsAreLittleEndian : Prop :=
  ∀ (s : State) (sp : Space) (a v : Word), s.mem.wf = true → s.cfg.translate = [] → s.cfg.holes = [] →
    ∃ t : State, s.writeWord sp a v = .ok t
      ∧ t.readByte sp a = .ok (loByte v) ∧ t.readByte sp (a + 1) = .ok (hiByte v) ∧ t.readWord sp a = .ok v
      ∧ ∀ c : Word, c ≠ a → c ≠ a + 1 → t.readByte sp c = s.readByte sp c

/-! ### 8-bit load group -/

/-- The byte loads: the source is read completely, then the destination takes its value; no flag and nothing else changes
(40_load8.md R130 to R136). -/
def Obligations.LoadByteResult : Prop :=
  ∀ (i : Instr) (len : Nat) (dst : Loc8) (src : Src8), LoadForm i len dst src →
    ∀ (s : State) (v : Byte), s.mem.wf = true → rd8 len src s = .ok v → Writable8 len dst s →
      ∃ t : State, exec i s = .next t ∧ Wrote8 len dst v s t ∧ SameFlags s t ∧ Completed len s t
        ∧ Unchanged dst.regs s t ∧ SameTrace s t

/-- EX A,src: the accumulator takes the operand's value and the operand takes the accumulator's (R137). -/
def Obligations.ExchangeAccumulatorResult : Prop :=
  ∀ (i : Instr) (len : Nat) (src : Loc8), ExchangeAForm i len src →
    ∀ (s : State) (v : Byte), s.mem.wf = true → rdLoc8 len src s = .ok v → Writable8 len src s →
      ∃ t : State, exec i s = .next t ∧ t.a = v ∧ Wrote8 len src s.a s t ∧ SameFlags s t ∧ Completed len s t
        ∧ Unchanged (.r8 .a :: src.regs) s t ∧ SameTrace s t

/-- EX H,L: H and L of the bank in use change places; no flag and nothing else changes (R138). -/
def Obligations.ExchangeHAndL : Prop :=
  ∀ s : State, ∃ t : State, exec .exHL s = .next t
    ∧ t.reg8 .h = s.reg8 .l ∧ t.reg8 .l = s.reg8 .h
    ∧ SameFlags s t ∧ SameMemory s t ∧ Completed 2 s t ∧ Unchanged [.r8 .h, .r8 .l] s t ∧ SameTrace s t

/-- LDUD and LDUP, load form, in system mode: the operand is translated as a user-mode access. Successful: A takes
the byte and C is cleared. Unsuccessful: no trap; C is set, Z and P/V take the WP and Valid bits; what A holds is not
said. Memory that is not there is refused (R141, R142). That A is then open is the spec's decision D31, the refusal
its decision D6 (log 5, 12). -/
def Obligations.UserSpaceLoad : Prop :=
  ∀ (i : Instr) (len : Nat) (k : Kind) (m : MemOperand), UserLoadForm i len k m →
    ∀ s : State, s.mode = .system →
      (∀ p : PhysAddr, s.translateAt { mode := .user, kind := k } .read (ea len m s) = .phys p →
        (s.isMemory p = true → ∃ t : State, exec i s = .next t ∧ t.a = s.mem.get p
            ∧ FlagsAre t s.f.s s.f.z s.f.h s.f.pv s.f.n false
            ∧ SameMemory s t ∧ Completed len s t ∧ Unchanged [.r8 .a] s t ∧ SameTrace s t)
          ∧ (s.isMemory p = false → exec i s = .refused .noMemoryThere))
        ∧ ∀ wp valid : Bool,
          s.translateAt { mode := .user, kind := k } .read (ea len m s) = .violation wp valid →
          ∃ t : State, exec i s = .next t ∧ FlagsAre t s.f.s wp s.f.h valid s.f.n true
            ∧ SameMemory s t ∧ Completed len s t ∧ Unchanged [.r8 .a] s t ∧ SameTrace s t

/-- LDUD and LDUP, store form, in system mode: as the load form, with A stored; an unsuccessful store writes nothing
(R141, R142). That an unsuccessful store writes nothing is the spec's decision D31 (log 38), the refusal its decision D6
(log 12). -/
def Obligations.UserSpaceStore : Prop :=
  ∀ (i : Instr) (len : Nat) (k : Kind) (m : MemOperand), UserStoreForm i len k m →
    ∀ s : State, s.mode = .system → s.mem.wf = true →
      (∀ p : PhysAddr, s.translateAt { mode := .user, kind := k } .write (ea len m s) = .phys p →
        (s.isMemory p = true → ∃ t : State, exec i s = .next t ∧ StoredByte p s.a s t
            ∧ FlagsAre t s.f.s s.f.z s.f.h s.f.pv s.f.n false
            ∧ Completed len s t ∧ Unchanged [] s t ∧ SameTrace s t)
          ∧ (s.isMemory p = false → exec i s = .refused .noMemoryThere))
        ∧ ∀ wp valid : Bool,
          s.translateAt { mode := .user, kind := k } .write (ea len m s) = .violation wp valid →
          ∃ t : State, exec i s = .next t ∧ FlagsAre t s.f.s wp s.f.h valid s.f.n true
            ∧ SameMemory s t ∧ Completed len s t ∧ Unchanged [] s t ∧ SameTrace s t

/-! ### 16-bit load and exchange group -/

/-- EX DE,HL and EX XY,HL: the two registers change places (41_load16_exchange.md R151). -/
def Obligations.ExchangeWithHL : Prop :=
  ∀ (i : Instr) (len : Nat) (w : Reg16), ExchangeHLForm i len w →
    ∀ s : State, ∃ t : State, exec i s = .next t ∧ t.hl = s.reg16 w ∧ t.reg16 w = s.hl
      ∧ SameFlags s t ∧ SameMemory s t ∧ Completed len s t
      ∧ Unchanged ([.r8 .h, .r8 .l] ++ w.regs s) s t ∧ SameTrace s t

/-- EX AF,AF' and EXX: the names of the bank in use and of the other one change places, all eight bits of F with the
accumulator, and the selector is complemented (R152, R153, 10_state.md R32). -/
def Obligations.BankSwitches : Prop :=
  (∀ s : State, ∃ t : State, exec .exAfAf s = .next t
      ∧ t.a = s.afAlt.a ∧ t.f = s.afAlt.f ∧ t.afAlt.a = s.a ∧ t.afAlt.f = s.f ∧ t.afSel = !s.afSel
      ∧ (∀ g : Reg, g ∉ [Reg.r8 .a, .alt .a, .afSel] → t.look g = s.look g)
      ∧ t.halted = s.halted ∧ t.mmuLatch = s.mmuLatch ∧ t.cfg = s.cfg
      ∧ SameMemory s t ∧ Completed 1 s t ∧ SameTrace s t)
    ∧ ∀ s : State, ∃ t : State, exec .exx s = .next t
      ∧ (∀ r : R8, r ≠ .a → t.reg8 r = s.altReg8 r ∧ t.altReg8 r = s.reg8 r) ∧ t.rfSel = !s.rfSel
      ∧ SameFlags s t ∧ SameMemory s t ∧ Completed 1 s t ∧ SameTrace s t
      ∧ Unchanged [.r8 .b, .r8 .c, .r8 .d, .r8 .e, .r8 .h, .r8 .l, .alt .b, .alt .c, .alt .d, .alt .e, .alt .h, .alt .l,
        .rfSel] s t

/-- EX (SP),dst: the register and the word at the top of the stack change places; both bytes are read before either
is written, and SP does not move (R155). The order of the accesses is the spec's decisions D4 and D27 (log 15, 35), their
space its decision D23 (log 32). -/
def Obligations.ExchangeStackTop : Prop :=
  ∀ (i : Instr) (len : Nat) (w : Reg16), StackTopForm i len w →
    ∀ (s : State) (p p' q q' : PhysAddr), s.mem.wf = true →
      s.reach s.curData .read s.sp = .ok p → s.reach s.curData .read (s.sp + 1) = .ok p' →
      s.reach s.curData .write s.sp = .ok q → s.reach s.curData .write (s.sp + 1) = .ok q' →
      ∃ t : State, exec i s = .next t
        ∧ (t.reg16 w).toNat = (s.mem.get p').toNat * 256 + (s.mem.get p).toNat
        ∧ StoredWord q q' (loByte (s.reg16 w)) (hiByte (s.reg16 w)) s t
        ∧ SameFlags s t ∧ Completed len s t ∧ Unchanged (w.regs s) s t ∧ SameTrace s t

/-- LDA: the destination takes the effective address of the source; no memory is read, whatever the translation says, and
nothing else changes (R156). -/
def Obligations.LoadAddressResult : Prop :=
  ∀ (i : Instr) (len : Nat) (w : Reg16) (m : MemOperand), LoadAddressForm i len w m →
    ∀ s : State, ∃ t : State, exec i s = .next t ∧ t.reg16 w = ea len m s
      ∧ SameFlags s t ∧ SameMemory s t ∧ Completed len s t ∧ Unchanged (w.regs s) s t ∧ SameTrace s t

/-- LD[W] dst,nn: the register, or the two bytes in memory, take the immediate word, low byte at the lower address (R157). -/
def Obligations.LoadImmediateWord : Prop :=
  ∀ (i : Instr) (len : Nat) (dst : Loc16) (nn : Word), LoadWordForm i len dst nn →
    ∀ s : State, s.mem.wf = true → Writable16 len dst s →
      ∃ t : State, exec i s = .next t ∧ Wrote16 len dst nn s t ∧ SameFlags s t ∧ Completed len s t
        ∧ Unchanged (dst.regs s) s t ∧ SameTrace s t

/-! ### Block transfer and search group -/

/-- One iteration of LDI, LDD, LDIR, LDDR: the byte at (HL) goes to (DE), both pointers step, BC counts down, H and N
are cleared and P/V says whether BC is not yet zero; a repeating form stays at its own address until BC is zero
(42_block.md R171 to R174, R178). That one iteration is one step is the spec's decision D15 (log 36). -/
def Obligations.BlockTransferIteration : Prop :=
  ∀ (i : Instr) (d : Dir) (rep : Bool), BlockLoadForm i d rep →
    ∀ (s : State) (p q : PhysAddr), s.mem.wf = true →
      s.reach s.curData .read s.hl = .ok p → s.reach s.curData .write s.de = .ok q →
      ∃ t : State, exec i s = .next t ∧ StoredByte q (s.mem.get p) s t
        ∧ (d = .inc → t.hl = s.hl + 1 ∧ t.de = s.de + 1)
        ∧ (d = .dec → t.hl = s.hl - 1 ∧ t.de = s.de - 1)
        ∧ t.bc = s.bc - 1
        ∧ FlagsAre t s.f.s s.f.z false (decide (s.bc ≠ 1)) false s.f.c
        ∧ ((rep = true ∧ s.bc ≠ 1 ∧ t.pc = s.pc) ∨ ((rep = false ∨ s.bc = 1) ∧ Completed 2 s t))
        ∧ Unchanged [.r8 .b, .r8 .c, .r8 .d, .r8 .e, .r8 .h, .r8 .l] s t ∧ SameTrace s t

/-- One iteration of CPI, CPD, CPIR, CPDR: A is compared with the byte at (HL), HL steps, BC counts down; a repeating
form stays at its own address until BC is zero or the byte is found (R175 to R179). That one iteration is one step is
the spec's decision D15 (log 36). -/
def Obligations.BlockSearchIteration : Prop :=
  ∀ (i : Instr) (d : Dir) (rep : Bool), BlockCompareForm i d rep →
    ∀ (s : State) (p : PhysAddr), s.reach s.curData .read s.hl = .ok p →
      ∃ t : State, exec i s = .next t
        ∧ (d = .inc → t.hl = s.hl + 1) ∧ (d = .dec → t.hl = s.hl - 1) ∧ t.bc = s.bc - 1
        ∧ FlagsAre t ((s.a - s.mem.get p).getLsbD 7) (decide (s.a = s.mem.get p))
          (decide (s.a.toNat % 16 < (s.mem.get p).toNat % 16)) (decide (s.bc ≠ 1)) true s.f.c
        ∧ ((rep = true ∧ s.bc ≠ 1 ∧ s.a ≠ s.mem.get p ∧ t.pc = s.pc)
          ∨ ((rep = false ∨ s.bc = 1 ∨ s.a = s.mem.get p) ∧ Completed 2 s t))
        ∧ SameMemory s t ∧ Unchanged [.r8 .b, .r8 .c, .r8 .h, .r8 .l] s t ∧ SameTrace s t

/-- LDIR reissued `n` times, where BC holds `n` (or 0 for 65,536), copies `n` bytes upwards, when no iteration stores
where a later one reads, under the default translation and memory map: it then goes on to the next instruction with
BC = 0 and P/V clear (20_memory.md R76, 42_block.md R173, R178). The condition is that the destination starts at most
65,536 - `n` addresses below the source, modulo 2^16: strings that share no address meet it (two such are at most 32,768
bytes long), and for 65,536 bytes it is HL = DE. That one iteration is one step is the spec's decision D15 (log 36). -/
def Obligations.LdirCopiesTheBlock : Prop :=
  ∀ (s : State) (n : Nat), s.mem.wf = true → s.cfg.translate = [] → s.cfg.holes = [] →
    1 ≤ n → n ≤ 65536 → s.bc = BitVec.ofNat 16 n →
    (∀ j k : Nat, j < k → k < n → s.de + BitVec.ofNat 16 j ≠ s.hl + BitVec.ofNat 16 k) →
    ∃ t : State, repeatExec .ldir n s = .next t
      ∧ (∀ k : Nat, k < n →
        t.mem.get ((s.de + BitVec.ofNat 16 k).setWidth 24) = s.mem.get ((s.hl + BitVec.ofNat 16 k).setWidth 24))
      ∧ (∀ a : PhysAddr, (∀ k : Nat, k < n → a ≠ (s.de + BitVec.ofNat 16 k).setWidth 24) →
        t.mem.get a = s.mem.get a)
      ∧ t.hl = s.hl + BitVec.ofNat 16 n ∧ t.de = s.de + BitVec.ofNat 16 n ∧ t.bc = 0
      ∧ FlagsAre t s.f.s s.f.z false false false s.f.c ∧ Completed 2 s t
      ∧ Unchanged [.r8 .b, .r8 .c, .r8 .d, .r8 .e, .r8 .h, .r8 .l] s t ∧ SameTrace s t

/-! ### 8-bit arithmetic and logic group -/

/-- ADC and ADD, byte: A takes the sum of A, the operand and (for ADC) the carry, modulo 256, and all six flags are written
(43_arith8.md R191, R192). -/
def Obligations.AddByteResult : Prop :=
  ∀ (op : Alu8) (i : Instr) (len : Nat) (src : Src8), (op = .adc ∨ op = .add) → Alu8Form op i len src →
    ∀ (s : State) (v : Byte) (cin : Bool), cin = (decide (op = .adc) && s.f.c) → rd8 len src s = .ok v →
      ∃ t : State, exec i s = .next t ∧ t.a.toNat = (s.a.toNat + v.toNat + cin.toNat) % 256
        ∧ FlagsAre t (t.a.getLsbD 7) (decide (t.a = 0))
          (decide (16 ≤ s.a.toNat % 16 + v.toNat % 16 + cin.toNat))
          (decide (s.a.toInt + v.toInt + cin.toNat < -128 ∨ 127 < s.a.toInt + v.toInt + cin.toNat))
          false (decide (256 ≤ s.a.toNat + v.toNat + cin.toNat))
        ∧ SameMemory s t ∧ Completed len s t ∧ Unchanged [.r8 .a] s t ∧ SameTrace s t

/-- AND: A takes the bitwise conjunction; H is set, N and C are cleared, P/V says whether the number of 1 bits of the
result is even (R193). -/
def Obligations.AndByteResult : Prop :=
  ∀ (i : Instr) (len : Nat) (src : Src8), Alu8Form .and i len src →
    ∀ (s : State) (v : Byte), rd8 len src s = .ok v →
      ∃ t : State, exec i s = .next t ∧ t.a = s.a &&& v
        ∧ FlagsAre t ((s.a &&& v).getLsbD 7) (decide (s.a &&& v = 0)) true
          (decide ((List.range 8).countP (fun k => (s.a &&& v).getLsbD k) % 2 = 0)) false false
        ∧ SameMemory s t ∧ Completed len s t ∧ Unchanged [.r8 .a] s t ∧ SameTrace s t

/-- CP, byte: only the flags change: Z is set exactly when A equals the operand, C exactly when A is below it (R194). -/
def Obligations.CompareByteResult : Prop :=
  ∀ (i : Instr) (len : Nat) (src : Src8), Alu8Form .cp i len src →
    ∀ (s : State) (v : Byte), rd8 len src s = .ok v →
      ∃ t : State, exec i s = .next t
        ∧ FlagsAre t ((s.a - v).getLsbD 7) (decide (s.a = v)) (decide (s.a.toNat % 16 < v.toNat % 16))
          (decide (s.a.toInt - v.toInt < -128 ∨ 127 < s.a.toInt - v.toInt)) true (decide (s.a.toNat < v.toNat))
        ∧ SameMemory s t ∧ Completed len s t ∧ Unchanged [] s t ∧ SameTrace s t

/-- CPL: A is complemented and H and N are set; CCF: C is inverted, H takes the old C and N is cleared; nothing else
changes (R195, 46_control.md R262). -/
def Obligations.ComplementResults : Prop :=
  (∀ s : State, ∃ t : State, exec .cpl s = .next t ∧ t.a = ~~~s.a
      ∧ FlagsAre t s.f.s s.f.z true s.f.pv true s.f.c
      ∧ SameMemory s t ∧ Completed 1 s t ∧ Unchanged [.r8 .a] s t ∧ SameTrace s t)
    ∧ ∀ s : State, ∃ t : State, exec .ccf s = .next t
      ∧ FlagsAre t s.f.s s.f.z s.f.c s.f.pv false (!s.f.c)
      ∧ SameMemory s t ∧ Completed 1 s t ∧ Unchanged [] s t ∧ SameTrace s t

/-- DAA: where a row of the table matches N, C, H and the digits of A, its byte is added and C and H take the row's
values; N is not affected; where no row matches, the instruction is refused (R196). The refusal is the spec's
decision D11 (log 22). -/
def Obligations.DecimalAdjustResult : Prop :=
  (∀ (s : State) (row : DaaRow), row ∈ daaTable → row.hits s.f s.a = true →
      ∃ t : State, exec .daa s = .next t ∧ t.a = s.a + row.added
        ∧ FlagsAre t (t.a.getLsbD 7) (decide (t.a = 0)) row.hAfter
          (decide ((List.range 8).countP (fun k => t.a.getLsbD k) % 2 = 0)) s.f.n row.cAfter
        ∧ SameMemory s t ∧ Completed 1 s t ∧ Unchanged [.r8 .a] s t ∧ SameTrace s t)
    ∧ ∀ s : State, (∀ row ∈ daaTable, row.hits s.f s.a = false) → exec .daa s = .refused .daaOutsideTable

/-- DAA after the addition of two BCD bytes gives the BCD sum: for two-digit decimal numbers `x` and `y`, if A, C, H and N
are what `add8` makes of their BCD codes and a carry, then DAA leaves in A the BCD code of the sum modulo 100 and in C
whether it reached 100 (R196: "The accumulator is adjusted to form two 4-bit BCD digits"). -/
def Obligations.DecimalAdjustMakesBcdSums : Prop :=
  ∀ (s : State) (x y : Nat) (cin : Bool), x < 100 → y < 100 →
    s.a = (add8 (BitVec.ofNat 8 (x / 10 * 16 + x % 10)) (BitVec.ofNat 8 (y / 10 * 16 + y % 10)) cin).res →
    s.f.n = false →
    s.f.h = (add8 (BitVec.ofNat 8 (x / 10 * 16 + x % 10)) (BitVec.ofNat 8 (y / 10 * 16 + y % 10)) cin).h →
    s.f.c = (add8 (BitVec.ofNat 8 (x / 10 * 16 + x % 10)) (BitVec.ofNat 8 (y / 10 * 16 + y % 10)) cin).c →
    ∃ t : State, exec .daa s = .next t
      ∧ t.a.toNat = (x + y + cin.toNat) % 100 / 10 * 16 + (x + y + cin.toNat) % 10
      ∧ t.f.c = decide (100 ≤ x + y + cin.toNat)

/-- DEC and INC, byte: the operand goes down or up by one, modulo 256, and all flags but C are written: H where the low
digit was 0 (DEC) or F (INC), P/V where the operand was 80 (DEC) or 7F (INC) (R197, R201). -/
def Obligations.CountByteResult : Prop :=
  ∀ (d : Dir) (i : Instr) (len : Nat) (dst : Loc8), Count8Form d i len dst →
    ∀ (s : State) (v r : Byte), s.mem.wf = true → rdLoc8 len dst s = .ok v → Writable8 len dst s →
      r = (match d with | .dec => v - 1 | .inc => v + 1) →
      ∃ t : State, exec i s = .next t ∧ Wrote8 len dst r s t
        ∧ FlagsAre t (r.getLsbD 7) (decide (r = 0))
          (match d with | .dec => decide (v.toNat % 16 = 0) | .inc => decide (v.toNat % 16 = 15))
          (match d with | .dec => decide (v = 0x80) | .inc => decide (v = 0x7F))
          (decide (d = .dec)) s.f.c
        ∧ Completed len s t ∧ Unchanged dst.regs s t ∧ SameTrace s t

/-- DIV, byte, signed: the quotient truncated toward zero in A and the remainder, with the sign of the dividend, in L; a
zero divisor and a quotient outside -128 to 127 write the flags and raise Division Exception with the registers unchanged
(R198, 60_exceptions.md R334; that L is unchanged in those cases is the spec's choice D14). -/
def Obligations.DivideByteSigned : Prop :=
  ∀ (i : Instr) (len : Nat) (src : Src8), Alu8Form .div i len src →
    ∀ (s : State) (v : Byte), rd8 len src s = .ok v →
      (v ≠ 0 → -128 ≤ Int.tdiv s.hl.toInt v.toInt → Int.tdiv s.hl.toInt v.toInt ≤ 127 →
        ∃ t : State, exec i s = .next t
          ∧ t.a.toInt = Int.tdiv s.hl.toInt v.toInt ∧ (t.reg8 .l).toInt = Int.tmod s.hl.toInt v.toInt
          ∧ FlagsAre t (decide (Int.tdiv s.hl.toInt v.toInt < 0)) (decide (Int.tdiv s.hl.toInt v.toInt = 0)) s.f.h
            false s.f.n s.f.c
          ∧ SameMemory s t ∧ Completed len s t ∧ Unchanged [.r8 .a, .r8 .l] s t ∧ SameTrace s t)
        ∧ (v = 0 → ∃ f : State, exec i s = .fault (.divisionException .zeroDivisor f)
          ∧ FlagsAre f false true s.f.h true s.f.n s.f.c ∧ SameMemory s f ∧ Unchanged [] s f ∧ SameTrace s f)
        ∧ (v ≠ 0 → (Int.tdiv s.hl.toInt v.toInt < -128 ∨ 127 < Int.tdiv s.hl.toInt v.toInt) →
          ∃ f : State, exec i s = .fault (.divisionException .overflow f)
            ∧ FlagsAre f false false s.f.h true s.f.n s.f.c ∧ SameMemory s f ∧ Unchanged [] s f ∧ SameTrace s f)

/-- DIVU, byte, unsigned: quotient in A, remainder in L, S cleared; case 3 is exactly H at least the divisor (R199,
60_exceptions.md R334; that L is unchanged in cases 2 and 3 is the spec's choice D14). -/
def Obligations.DivideByteUnsigned : Prop :=
  ∀ (i : Instr) (len : Nat) (src : Src8), Alu8Form .divu i len src →
    ∀ (s : State) (v : Byte), rd8 len src s = .ok v →
      (v ≠ 0 → (s.reg8 .h).toNat < v.toNat →
        ∃ t : State, exec i s = .next t
          ∧ t.a.toNat = s.hl.toNat / v.toNat ∧ (t.reg8 .l).toNat = s.hl.toNat % v.toNat
          ∧ FlagsAre t false (decide (s.hl.toNat < v.toNat)) s.f.h false s.f.n s.f.c
          ∧ SameMemory s t ∧ Completed len s t ∧ Unchanged [.r8 .a, .r8 .l] s t ∧ SameTrace s t)
        ∧ (v = 0 → ∃ f : State, exec i s = .fault (.divisionException .zeroDivisor f)
          ∧ FlagsAre f false true s.f.h true s.f.n s.f.c ∧ SameMemory s f ∧ Unchanged [] s f ∧ SameTrace s f)
        ∧ (v ≠ 0 → v.toNat ≤ (s.reg8 .h).toNat →
          ∃ f : State, exec i s = .fault (.divisionException .overflow f)
            ∧ FlagsAre f false false s.f.h true s.f.n s.f.c ∧ SameMemory s f ∧ Unchanged [] s f ∧ SameTrace s f)

/-- EXTS A and EXTS HL: the sign-extended value of A in HL, and of HL in DE and HL; no flag and nothing else changes (R200,
44_arith16.md R229). -/
def Obligations.ExtendSignResults : Prop :=
  (∀ s : State, ∃ t : State, exec .extsA s = .next t ∧ t.hl.toInt = s.a.toInt
      ∧ SameFlags s t ∧ SameMemory s t ∧ Completed 2 s t ∧ Unchanged [.r8 .h, .r8 .l] s t ∧ SameTrace s t)
    ∧ ∀ s : State, ∃ t : State, exec .extsHl s = .next t ∧ t.de.toInt * 65536 + t.hl.toNat = s.hl.toInt
      ∧ SameFlags s t ∧ SameMemory s t ∧ Completed 2 s t ∧ Unchanged [.r8 .d, .r8 .e] s t ∧ SameTrace s t

/-! ### 16-bit arithmetic group -/

/-- ADC and ADD of a register, word: the destination takes the sum, modulo 2^16; ADC writes all six flags, ADD only H, N
and C (R221, R222). -/
def Obligations.AddWordRegisters : Prop :=
  ∀ (k : AddKind) (i : Instr) (len : Nat) (d w : Reg16), AddWordForm k i len d w →
    ∀ (s : State) (cin : Bool), cin = (decide (k = .adc) && s.f.c) →
      ∃ t : State, exec i s = .next t
        ∧ (t.reg16 d).toNat = ((s.reg16 d).toNat + (s.reg16 w).toNat + cin.toNat) % 65536
        ∧ (k = .adc → t.f.s = (t.reg16 d).getLsbD 15 ∧ t.f.z = decide (t.reg16 d = 0)
          ∧ t.f.pv = decide ((s.reg16 d).toInt + (s.reg16 w).toInt + cin.toNat < -32768
            ∨ 32767 < (s.reg16 d).toInt + (s.reg16 w).toInt + cin.toNat))
        ∧ (k = .add → t.f.s = s.f.s ∧ t.f.z = s.f.z ∧ t.f.pv = s.f.pv)
        ∧ t.f.h = decide (4096 ≤ (s.reg16 d).toNat % 4096 + (s.reg16 w).toNat % 4096 + cin.toNat)
        ∧ t.f.n = false
        ∧ t.f.c = decide (65536 ≤ (s.reg16 d).toNat + (s.reg16 w).toNat + cin.toNat)
        ∧ SameMemory s t ∧ Completed len s t ∧ Unchanged (d.regs s) s t ∧ SameTrace s t

/-- ADD dst,A: the accumulator, sign-extended to 16 bits, is added to HL, IX or IY, and all six flags are written (R223). -/
def Obligations.AddAccumulatorResult : Prop :=
  ∀ (i : Instr) (len : Nat) (d : Reg16), AddAccumulatorForm i len d →
    ∀ s : State, ∃ t : State, exec i s = .next t
      ∧ ((t.reg16 d).toNat : Int) = ((s.reg16 d).toNat + s.a.toInt) % 65536
      ∧ FlagsAre t ((t.reg16 d).getLsbD 15) (decide (t.reg16 d = 0))
        (decide (4096 ≤ (s.reg16 d).toNat % 4096 + (s.a.signExtend 16).toNat % 4096))
        (decide ((s.reg16 d).toInt + s.a.toInt < -32768 ∨ 32767 < (s.reg16 d).toInt + s.a.toInt)) false
        (decide (65536 ≤ (s.reg16 d).toNat + (s.a.signExtend 16).toNat))
      ∧ SameMemory s t ∧ Completed len s t ∧ Unchanged (d.regs s) s t ∧ SameTrace s t

/-- ADDW adds the operand to HL; CPW only compares HL with it; both write all six flags (R224, R225). -/
def Obligations.AddAndCompareWord : Prop :=
  (∀ (i : Instr) (len : Nat) (src : Src16), Alu16Form .addw i len src →
      ∀ (s : State) (v : Word), rd16 len src s = .ok v →
        ∃ t : State, exec i s = .next t ∧ t.hl = s.hl + v
          ∧ FlagsAre t ((s.hl + v).getLsbD 15) (decide (s.hl + v = 0))
            (decide (4096 ≤ s.hl.toNat % 4096 + v.toNat % 4096))
            (decide (s.hl.toInt + v.toInt < -32768 ∨ 32767 < s.hl.toInt + v.toInt)) false
            (decide (65536 ≤ s.hl.toNat + v.toNat))
          ∧ SameMemory s t ∧ Completed len s t ∧ Unchanged [.r8 .h, .r8 .l] s t ∧ SameTrace s t)
    ∧ ∀ (i : Instr) (len : Nat) (src : Src16), Alu16Form .cpw i len src →
      ∀ (s : State) (v : Word), rd16 len src s = .ok v →
        ∃ t : State, exec i s = .next t
          ∧ FlagsAre t ((s.hl - v).getLsbD 15) (decide (s.hl = v)) (decide (s.hl.toNat % 4096 < v.toNat % 4096))
            (decide (s.hl.toInt - v.toInt < -32768 ∨ 32767 < s.hl.toInt - v.toInt)) true
            (decide (s.hl.toNat < v.toNat))
          ∧ SameMemory s t ∧ Completed len s t ∧ Unchanged [] s t ∧ SameTrace s t

/-- DEC[W] and INC[W]: the register, or the word in memory, goes down or up by one, modulo 2^16; no flag changes (R226,
R230). -/
def Obligations.CountWordResult : Prop :=
  ∀ (d : Dir) (i : Instr) (len : Nat) (dst : Loc16), Count16Form d i len dst →
    ∀ (s : State) (v : Word), s.mem.wf = true → rdLoc16 len dst s = .ok v → Writable16 len dst s →
      ∃ t : State, exec i s = .next t
        ∧ Wrote16 len dst (match d with | .dec => v - 1 | .inc => v + 1) s t
        ∧ SameFlags s t ∧ Completed len s t ∧ Unchanged (dst.regs s) s t ∧ SameTrace s t

/-- DIVW, signed: DE and HL hold the 32-bit dividend; quotient in HL, remainder in DE; a zero divisor and a quotient
outside -32768 to 32767 write the flags and raise Division Exception with DE and HL unchanged (R227, 60_exceptions.md
R334). That the trap ends the run is the spec's decision D1 (log 7). -/
def Obligations.DivideWordSigned : Prop :=
  ∀ (i : Instr) (len : Nat) (src : Src16), Alu16Form .divw i len src →
    ∀ (s : State) (v : Word) (n : Int), rd16 len src s = .ok v → n = s.de.toInt * 65536 + s.hl.toNat →
      (v ≠ 0 → -32768 ≤ Int.tdiv n v.toInt → Int.tdiv n v.toInt ≤ 32767 →
        ∃ t : State, exec i s = .next t ∧ t.hl.toInt = Int.tdiv n v.toInt ∧ t.de.toInt = Int.tmod n v.toInt
          ∧ FlagsAre t (decide (Int.tdiv n v.toInt < 0)) (decide (Int.tdiv n v.toInt = 0)) s.f.h false s.f.n s.f.c
          ∧ SameMemory s t ∧ Completed len s t ∧ Unchanged [.r8 .d, .r8 .e, .r8 .h, .r8 .l] s t ∧ SameTrace s t)
        ∧ (v = 0 → ∃ f : State, exec i s = .fault (.divisionException .zeroDivisor f)
          ∧ FlagsAre f false true s.f.h true s.f.n s.f.c ∧ SameMemory s f ∧ Unchanged [] s f ∧ SameTrace s f)
        ∧ (v ≠ 0 → (Int.tdiv n v.toInt < -32768 ∨ 32767 < Int.tdiv n v.toInt) →
          ∃ f : State, exec i s = .fault (.divisionException .overflow f)
            ∧ FlagsAre f false false s.f.h true s.f.n s.f.c ∧ SameMemory s f ∧ Unchanged [] s f ∧ SameTrace s f)

/-- DIVUW, unsigned: quotient in HL, remainder in DE, S cleared; case 3 is exactly DE at least the divisor (R228,
60_exceptions.md R334). That the trap ends the run is the spec's decision D1 (log 7). -/
def Obligations.DivideWordUnsigned : Prop :=
  ∀ (i : Instr) (len : Nat) (src : Src16), Alu16Form .divuw i len src →
    ∀ (s : State) (v : Word) (n : Nat), rd16 len src s = .ok v → n = s.de.toNat * 65536 + s.hl.toNat →
      (v ≠ 0 → s.de.toNat < v.toNat →
        ∃ t : State, exec i s = .next t ∧ t.hl.toNat = n / v.toNat ∧ t.de.toNat = n % v.toNat
          ∧ FlagsAre t false (decide (n < v.toNat)) s.f.h false s.f.n s.f.c
          ∧ SameMemory s t ∧ Completed len s t ∧ Unchanged [.r8 .d, .r8 .e, .r8 .h, .r8 .l] s t ∧ SameTrace s t)
        ∧ (v = 0 → ∃ f : State, exec i s = .fault (.divisionException .zeroDivisor f)
          ∧ FlagsAre f false true s.f.h true s.f.n s.f.c ∧ SameMemory s f ∧ Unchanged [] s f ∧ SameTrace s f)
        ∧ (v ≠ 0 → v.toNat ≤ s.de.toNat →
          ∃ f : State, exec i s = .fault (.divisionException .overflow f)
            ∧ FlagsAre f false false s.f.h true s.f.n s.f.c ∧ SameMemory s f ∧ Unchanged [] s f ∧ SameTrace s f)

/-! ### Bit and program control groups -/

/-- BIT b,dst: Z is the complement of the tested bit, H is set, N is cleared; the operand is only read (45_bit.md R251). -/
def Obligations.BitTestResult : Prop :=
  ∀ (i : Instr) (len : Nat) (b : BitVec 3) (dst : Loc8), BitForm i len b dst →
    ∀ (s : State) (v : Byte), rdLoc8 len dst s = .ok v →
      ∃ t : State, exec i s = .next t ∧ FlagsAre t s.f.s (!v.getLsbD b.toNat) true s.f.pv false s.f.c
        ∧ SameMemory s t ∧ Completed len s t ∧ Unchanged [] s t ∧ SameTrace s t

/-- CALL whose condition fails only goes on to the next instruction; CALL that is taken pushes the address of the
next instruction, low byte lower, and continues at the operand's address; where that push makes the stack warning
pending, the same state is the one the System Stack Overflow Warning carries (46_control.md R260, R261,
60_exceptions.md R338). The stack's space and that the warning does not undo the call are the spec's decisions D23
and D22 (log 32, 33). -/
def Obligations.CallResult : Prop :=
  ∀ (i : Instr) (len : Nat) (c : Cond) (m : MemOperand), CallForm i len c m →
    ∀ s : State,
      (c.holds s = false → ∃ t : State, exec i s = .next t
          ∧ SameFlags s t ∧ SameMemory s t ∧ Completed len s t ∧ Unchanged [] s t ∧ SameTrace s t)
        ∧ ∀ p p' : PhysAddr, c.holds s = true → s.mem.wf = true →
          s.reach s.curData .write (s.sp - 2) = .ok p → s.reach s.curData .write (s.sp - 2 + 1) = .ok p' →
          ∃ t : State,
            (¬(s.mode = .system ∧ s.tcr.getLsbD s.cfg.tcrS = true ∧ (s.sp - 2, s.slr) ∈ s.cfg.stackWarn) →
                exec i s = .next t)
              ∧ (s.mode = .system ∧ s.tcr.getLsbD s.cfg.tcrS = true ∧ (s.sp - 2, s.slr) ∈ s.cfg.stackWarn →
                exec i s = .fault (.systemStackOverflowWarning t))
              ∧ t.pc = ea len m s ∧ t.eiShadow = false ∧ t.sp = s.sp - 2
              ∧ StoredWord p p' (loByte (s.pc + BitVec.ofNat 16 len)) (hiByte (s.pc + BitVec.ofNat 16 len)) s t
              ∧ SameFlags s t ∧ Unchanged (Reg16.sp.regs s) s t ∧ SameTrace s t

/-- JP, JR, JAF and JAR: where the condition holds PC takes the target, the operand's address or the next instruction's
address plus the signed displacement, modulo 2^16; otherwise the next instruction follows; nothing else changes (R264 to
R268). -/
def Obligations.JumpResult : Prop :=
  ∀ (i : Instr) (len : Nat) (c : Cond) (g : JumpTarget), JumpForm i len c g →
    ∀ s : State, ∃ t : State, exec i s = .next t ∧ t.eiShadow = false
      ∧ (c.holds s = false → t.pc = s.pc + BitVec.ofNat 16 len)
      ∧ (∀ m : MemOperand, c.holds s = true → g = .operand m → t.pc = ea len m s)
      ∧ (∀ d : Byte, c.holds s = true → g = .short d →
        (t.pc.toNat : Int) = (s.pc.toNat + len + d.toInt) % 65536)
      ∧ SameFlags s t ∧ SameMemory s t ∧ Unchanged [] s t ∧ SameTrace s t

/-- DJNZ: B goes down by one, modulo 256; while it is not zero the jump is taken; no flag changes (R263). -/
def Obligations.DecrementJumpResult : Prop :=
  ∀ (d : Byte) (s : State), ∃ t : State, exec (.djnz d) s = .next t
    ∧ t.reg8 .b = s.reg8 .b - 1 ∧ t.eiShadow = false
    ∧ (s.reg8 .b ≠ 1 → (t.pc.toNat : Int) = (s.pc.toNat + 2 + d.toInt) % 65536)
    ∧ (s.reg8 .b = 1 → t.pc = s.pc + 2)
    ∧ SameFlags s t ∧ SameMemory s t ∧ Unchanged [.r8 .b] s t ∧ SameTrace s t

/-! ### Input group -/

/-- IN dst,(C): one byte transaction at the address made of the I/O page, B and C; the destination takes the byte; S,
Z and P/V describe it, H and N are cleared, C is not written (47_io.md R280, R281, R285). The value is the
environment's: the spec's decision D20 (log 10). -/
def Obligations.InputToOperand : Prop :=
  ∀ (i : Instr) (len : Nat) (dst : Loc8), InputForm i len dst →
    ∀ (s : State) (v : Byte), ¬(s.mode = .user ∧ s.tcr.getLsbD s.cfg.tcrI = true) → s.mem.wf = true →
      Writable8 len dst s →
      v = (Config.ioIn s.ioTrace.length (s.iop ++ s.reg8 .b ++ s.reg8 .c) .byte).setWidth 8 →
      ∃ t : State, exec i s = .next t ∧ Wrote8 len dst v s t
        ∧ t.ioTrace = s.ioTrace
          ++ [{ addr := s.iop ++ s.reg8 .b ++ s.reg8 .c, width := .byte, value := v.setWidth 16 }]
        ∧ FlagsAre t (v.getLsbD 7) (decide (v = 0)) false
          (decide ((List.range 8).countP (fun k => v.getLsbD k) % 2 = 0)) false s.f.c
        ∧ Completed len s t ∧ Unchanged dst.regs s t

/-- IN A,(n) reads a byte at the address made of the I/O page, A and n, into A; INW HL,(C) reads a word whose low
byte goes to H and whose high byte to L, or, from an external page on an 8-bit bus, a byte into H, L then being
unconstrained. No flag changes (R284, R286, R287). The value is the environment's, the spec's decision D20, and the
8-bit bus its decision D24 (log 10, 5). -/
def Obligations.InputToRegisters : Prop :=
  (∀ (n : Byte) (s : State), ¬(s.mode = .user ∧ s.tcr.getLsbD s.cfg.tcrI = true) →
      ∃ t : State, exec (.inAN n) s = .next t
        ∧ t.a = (Config.ioIn s.ioTrace.length (s.iop ++ s.a ++ n) .byte).setWidth 8
        ∧ t.ioTrace = s.ioTrace ++ [{ addr := s.iop ++ s.a ++ n, width := .byte, value := t.a.setWidth 16 }]
        ∧ SameFlags s t ∧ SameMemory s t ∧ Completed 2 s t ∧ Unchanged [.r8 .a] s t)
    ∧ ∀ (s : State) (addr : IoAddr), ¬(s.mode = .user ∧ s.tcr.getLsbD s.cfg.tcrI = true) →
      addr = s.iop ++ s.reg8 .b ++ s.reg8 .c →
      ∃ t : State, exec .inw s = .next t
        ∧ (s.cfg.bus16 = true ∨ s.iop = 0xFE ∨ s.iop = 0xFF →
          t.reg8 .h = loByte (Config.ioIn s.ioTrace.length addr .word)
            ∧ t.reg8 .l = hiByte (Config.ioIn s.ioTrace.length addr .word)
            ∧ t.ioTrace = s.ioTrace
              ++ [⟨addr, .word, Config.ioIn s.ioTrace.length addr .word⟩])
        ∧ (s.cfg.bus16 = false ∧ s.iop ≠ 0xFE ∧ s.iop ≠ 0xFF →
          t.reg8 .h = loByte (Config.ioIn s.ioTrace.length addr .byte)
            ∧ t.ioTrace = s.ioTrace ++ [{ addr := addr, width := .byte, value := (t.reg8 .h).setWidth 16 }])
        ∧ SameFlags s t ∧ SameMemory s t ∧ Completed 2 s t ∧ Unchanged [.r8 .h, .r8 .l] s t

/-- One iteration of a block input: one transaction, its byte stored at (HL) or its word at (HL) and the next
address, low byte first; HL steps by the width, B alone counts down, Z says whether B reached zero and N is set; a
repeating form stays at its own address until B is zero. A word form is refused from an external page on an 8-bit bus
(R283, R284, R288 to R291). The value is the environment's, the spec's decision D20, the refusal its decision D24,
one iteration a step its decision D15 (log 10, 23, 36). -/
def Obligations.BlockInputIteration : Prop :=
  ∀ (i : Instr) (w : IoWidth) (d : Dir) (rep : Bool), BlockInputForm i w d rep →
    ∀ (s : State) (addr : IoAddr), ¬(s.mode = .user ∧ s.tcr.getLsbD s.cfg.tcrI = true) →
      addr = s.iop ++ s.reg8 .b ++ s.reg8 .c →
      (w = .word ∧ s.cfg.bus16 = false ∧ s.iop ≠ 0xFE ∧ s.iop ≠ 0xFF → exec i s = .refused .wordInputOnByteBus)
        ∧ ∀ p p' : PhysAddr, s.mem.wf = true → s.reach s.curData .write s.hl = .ok p →
          (w = .word → (s.cfg.bus16 = true ∨ s.iop = 0xFE ∨ s.iop = 0xFF)
            ∧ s.reach s.curData .write (s.hl + 1) = .ok p') →
          ∃ t : State, exec i s = .next t
            ∧ (w = .byte → StoredByte p (loByte (Config.ioIn s.ioTrace.length addr .byte)) s t
              ∧ t.ioTrace = s.ioTrace ++ [⟨addr, .byte, (loByte (Config.ioIn s.ioTrace.length addr .byte)).setWidth 16⟩])
            ∧ (w = .word → StoredWord p p' (loByte (Config.ioIn s.ioTrace.length addr .word))
                (hiByte (Config.ioIn s.ioTrace.length addr .word)) s t
              ∧ t.ioTrace = s.ioTrace ++ [⟨addr, .word, Config.ioIn s.ioTrace.length addr .word⟩])
            ∧ t.hl = (match d, w with
              | .inc, .byte => s.hl + 1 | .inc, .word => s.hl + 2
              | .dec, .byte => s.hl - 1 | .dec, .word => s.hl - 2)
            ∧ t.reg8 .b = s.reg8 .b - 1
            ∧ FlagsAre t s.f.s (decide (s.reg8 .b = 1)) s.f.h s.f.pv true s.f.c
            ∧ ((rep = true ∧ s.reg8 .b ≠ 1 ∧ t.pc = s.pc)
              ∨ ((rep = false ∨ s.reg8 .b = 1) ∧ Completed 2 s t))
            ∧ Unchanged [.r8 .b, .r8 .h, .r8 .l] s t

/-! ### CPU control group -/

/-- EI and DI in system mode: the enable bits the mask names (all seven without a mask) are set or cleared, every
other bit of MSR stays; EI sets `ei_shadow`; a mask with bit 7 set is refused (48_cpu_control.md R301, R302). The
refusal is the spec's decision D13 (log 17). -/
def Obligations.InterruptEnables : Prop :=
  ∀ (s : State) (mask : Byte), s.mode = .system →
    (mask.getLsbD 7 = true →
      exec (.eiMask mask) s = .refused .maskBitSeven ∧ exec (.diMask mask) s = .refused .maskBitSeven)
      ∧ ∀ (i : Instr) (enable : Bool) (len : Nat),
        ((i = .ei ∧ enable = true ∧ len = 1 ∧ mask = 0x7F) ∨ (i = .eiMask mask ∧ enable = true ∧ len = 3)
          ∨ (i = .di ∧ enable = false ∧ len = 1 ∧ mask = 0x7F) ∨ (i = .diMask mask ∧ enable = false ∧ len = 3)) →
        mask.getLsbD 7 = false →
        ∃ t : State, exec i s = .next t
          ∧ (∀ k : Nat, t.msr.getLsbD k = if mask.getLsbD k then enable else s.msr.getLsbD k)
          ∧ t.eiShadow = enable ∧ t.pc = s.pc + BitVec.ofNat 16 len
          ∧ SameFlags s t ∧ SameMemory s t ∧ Unchanged [.msr] s t ∧ SameTrace s t

/-- HALT in system mode: `halted` is set, PC is past the instruction and nothing else changes; with the
Breakpoint-on-Halt bit set the trap is taken instead, and nothing has changed but PC, which the rule leaves open
(R303, 60_exceptions.md R341). That the trap ends the run is the spec's decision D1 (log 7). -/
def Obligations.HaltResult : Prop :=
  ∀ s : State, s.mode = .system →
    (s.msr.getLsbD s.cfg.msrBH = false →
      exec .halt s = .next { s with halted := true, pc := s.pc + 1, eiShadow := false })
      ∧ (s.msr.getLsbD s.cfg.msrBH = true → ∃ f : State, exec .halt s = .fault (.breakpointOnHalt f)
        ∧ { f with pc := s.pc, freeCount := s.freeCount } = s)

/-- IM p in system mode puts p in bits 9:8 of the Interrupt Status register and changes no other bit of it (R304; the field
for every mode is the spec's decision D28). -/
def Obligations.InterruptModeResult : Prop :=
  ∀ (i : Instr) (p : BitVec 2),
    ((i = .im0 ∧ p = 0) ∨ (i = .im1 ∧ p = 1) ∨ (i = .im2 ∧ p = 2) ∨ (i = .im3 ∧ p = 3)) →
    ∀ s : State, s.mode = .system → ∃ t : State, exec i s = .next t
      ∧ (∀ k : Nat, t.isr.getLsbD k =
        if k = 8 then p.getLsbD 0 else if k = 9 then p.getLsbD 1 else s.isr.getLsbD k)
      ∧ SameFlags s t ∧ SameMemory s t ∧ Completed 2 s t ∧ Unchanged [.isr] s t ∧ SameTrace s t

/-- LD I,A and LD R,A in system mode copy A; LD A,I and LD A,R copy the register into A, with S and Z of the value, H and N
cleared and P/V the Interrupt A enable bit of MSR (R305 to R308). -/
def Obligations.SpecialRegisterLoads : Prop :=
  ∀ s : State, s.mode = .system →
    (∃ t : State, exec .ldIA s = .next t ∧ t.i = s.a
        ∧ SameFlags s t ∧ SameMemory s t ∧ Completed 2 s t ∧ Unchanged [.i] s t ∧ SameTrace s t)
      ∧ (∃ t : State, exec .ldRfA s = .next t ∧ t.r = s.a
        ∧ SameFlags s t ∧ SameMemory s t ∧ Completed 2 s t ∧ Unchanged [.r] s t ∧ SameTrace s t)
      ∧ (∃ t : State, exec .ldAI s = .next t ∧ t.a = s.i
        ∧ FlagsAre t (s.i.getLsbD 7) (decide (s.i = 0)) false (s.msr.getLsbD s.cfg.msrIEA) false s.f.c
        ∧ SameMemory s t ∧ Completed 2 s t ∧ Unchanged [.r8 .a] s t ∧ SameTrace s t)
      ∧ ∃ t : State, exec .ldARf s = .next t ∧ t.a = s.r
        ∧ FlagsAre t (s.r.getLsbD 7) (decide (s.r = 0)) false (s.msr.getLsbD s.cfg.msrIEA) false s.f.c
        ∧ SameMemory s t ∧ Completed 2 s t ∧ Unchanged [.r8 .a] s t ∧ SameTrace s t

/-- LDCTL XX,(C) in system mode: a 16-bit control register is loaded whole; an 8-bit one into the low byte, the upper
byte being unconstrained; of ISR the mode field in bits 9:8; another address in C is refused (R309, R310). The
refusal and what is open of ISR are the spec's decision D12 (log 20, 28). -/
def Obligations.ReadControlRegister : Prop :=
  ∀ (i : Instr) (len : Nat) (w : Reg16), ReadControlForm i len w →
    ∀ s : State, s.mode = .system →
      (∀ (c : Byte) (g : Reg), (c, g) ∈ controlTable → s.reg8 .c = c →
        ∃ t : State, exec i s = .next t
          ∧ (g ∈ [Reg.msr, .slr, .itvtp] → (t.reg16 w).toNat = s.look g)
          ∧ (g ∈ [Reg.iop, .bti, .btc, .tcr, .ccr, .lar] → (t.reg16 w).toNat % 256 = s.look g)
          ∧ (g = .isr → (t.reg16 w).toNat / 256 % 4 = s.look g / 256 % 4)
          ∧ SameFlags s t ∧ SameMemory s t ∧ Completed len s t ∧ Unchanged (w.regs s) s t ∧ SameTrace s t)
        ∧ ((∀ cg ∈ controlTable, cg.1 ≠ s.reg8 .c) → exec i s = .refused .noControlRegister)

/-- LDCTL (C),XX in system mode: a 16-bit control register takes the source, an 8-bit one its low byte, and nothing
else changes; a write to ISR and another address in C are refused (R309, R310). The refusals are the spec's decision
D12 (log 28). -/
def Obligations.WriteControlRegister : Prop :=
  ∀ (i : Instr) (len : Nat) (w : Reg16), WriteControlForm i len w →
    ∀ s : State, s.mode = .system →
      (∀ (c : Byte) (g : Reg), (c, g) ∈ controlTable → g ≠ .isr → s.reg8 .c = c →
        ∃ t : State, exec i s = .next t
          ∧ (g ∈ [Reg.msr, .slr, .itvtp] → t.look g = (s.reg16 w).toNat)
          ∧ (g ∈ [Reg.iop, .bti, .btc, .tcr, .ccr, .lar] → t.look g = (s.reg16 w).toNat % 256)
          ∧ SameFlags s t ∧ SameMemory s t ∧ Completed len s t ∧ Unchanged [g] s t ∧ SameTrace s t)
        ∧ (s.reg8 .c = 0x16 → exec i s = .refused .interruptStatusWrite)
        ∧ ((∀ cg ∈ controlTable, cg.1 ≠ s.reg8 .c) → exec i s = .refused .noControlRegister)

/-- LDCTL XX,USP and LDCTL USP,XX in system mode move the user stack pointer, whatever C holds; SSP and the flags do not
change (R311). -/
def Obligations.UserStackPointerLoads : Prop :=
  (∀ (i : Instr) (len : Nat) (w : Reg16), ReadUspForm i len w →
      ∀ s : State, s.mode = .system → ∃ t : State, exec i s = .next t ∧ t.reg16 w = s.usp
        ∧ SameFlags s t ∧ SameMemory s t ∧ Completed len s t ∧ Unchanged (w.regs s) s t ∧ SameTrace s t)
    ∧ ∀ (i : Instr) (len : Nat) (w : Reg16), WriteUspForm i len w →
      ∀ s : State, s.mode = .system → ∃ t : State, exec i s = .next t ∧ t.usp = s.reg16 w
        ∧ SameFlags s t ∧ SameMemory s t ∧ Completed len s t ∧ Unchanged [.usp] s t ∧ SameTrace s t
end

