-- ==== Sys2Proof/Laws/Memory.lean ====
section
/-! SUPPORT. Physical memory and the written set: read after write, and the canonical form that every operation keeps. -/

namespace Sys2Proof.Machine

/-! ### Memory -/

theorem cellsWf_mono {lo lo' : Nat} (h : lo' ≤ lo) : ∀ {l : List Host.Cell}, cellsWf lo l = true → cellsWf lo' l = true
  | [], _ => rfl
  | (k, v) :: t, hw => by
    simp only [cellsWf, Bool.and_eq_true, decide_eq_true_eq] at hw ⊢
    exact ⟨⟨⟨by omega, hw.1.1.2⟩, hw.1.2⟩, hw.2⟩

theorem lookupCell_below {lo : Nat} : ∀ {l : List Host.Cell} {a : Nat},
    cellsWf lo l = true → a < lo → lookupCell a l = unlistedByte
  | [], _, _, _ => rfl
  | (k, v) :: t, a, hw, ha => by
    simp only [cellsWf, Bool.and_eq_true, decide_eq_true_eq] at hw
    rw [lookupCell, if_neg (by omega), lookupCell_below hw.2 (by omega)]

theorem lookupCell_storeCell_same (a : Nat) (b : Byte) : ∀ {lo : Nat} {l : List Host.Cell},
    cellsWf lo l = true → lookupCell a (storeCell a b l) = b
  | _, [], _ => by
    by_cases hb : b = unlistedByte <;> simp [storeCell, lookupCell, hb]
  | lo, (k, v) :: t, hw => by
    simp only [cellsWf, Bool.and_eq_true, decide_eq_true_eq] at hw
    rw [storeCell]
    split
    · split
      · rw [lookupCell, if_neg (by omega), lookupCell_below hw.2 (by omega)]; exact Eq.symm ‹_›
      · simp [lookupCell]
    · split
      · split
        · rw [lookupCell_below hw.2 (by omega)]; exact Eq.symm ‹_›
        · simp [lookupCell]
      · rw [lookupCell, if_neg (by omega), lookupCell_storeCell_same a b hw.2]

theorem lookupCell_storeCell_other {a c : Nat} (b : Byte) (h : c ≠ a) : ∀ {lo : Nat} {l : List Host.Cell},
    cellsWf lo l = true → lookupCell c (storeCell a b l) = lookupCell c l
  | _, [], _ => by
    by_cases hb : b = unlistedByte <;> simp [storeCell, lookupCell, hb, Ne.symm h]
  | lo, (k, v) :: t, hw => by
    simp only [cellsWf, Bool.and_eq_true, decide_eq_true_eq] at hw
    rw [storeCell]
    split
    · split
      · rfl
      · rw [lookupCell, if_neg (Ne.symm h)]
    · split
      · rename_i hk
        have hc : lookupCell c ((k, v) :: t) = lookupCell c t := by rw [lookupCell, if_neg (by omega)]
        split
        · exact hc.symm
        · rw [hc, lookupCell, if_neg (Ne.symm h)]
      · simp only [lookupCell]
        split
        · rfl
        · exact lookupCell_storeCell_other b h hw.2

theorem storeCell_wf {a : Nat} (b : Byte) (ha : a < 2 ^ 24) : ∀ {lo : Nat} {l : List Host.Cell},
    lo ≤ a → cellsWf lo l = true → cellsWf lo (storeCell a b l) = true
  | lo, [], hl, _ => by
    by_cases hb : b = unlistedByte
    · simp [storeCell, hb, cellsWf]
    · simp [storeCell, hb, cellsWf, hl]; omega
  | lo, (k, v) :: t, hl, hw => by
    have hw' := hw
    simp only [cellsWf, Bool.and_eq_true, decide_eq_true_eq] at hw
    rw [storeCell]
    split
    · split
      · exact hw'
      · simp only [cellsWf, Bool.and_eq_true, decide_eq_true_eq]
        exact ⟨⟨⟨hl, ha⟩, ‹_›⟩, ⟨⟨by omega, hw.1.1.2⟩, hw.1.2⟩, hw.2⟩
    · split
      · split
        · exact cellsWf_mono (by omega) hw.2
        · simp only [cellsWf, Bool.and_eq_true, decide_eq_true_eq]
          exact ⟨⟨⟨hl, ha⟩, ‹_›⟩, by simp_all⟩
      · simp only [cellsWf, Bool.and_eq_true, decide_eq_true_eq]
        exact ⟨hw.1, storeCell_wf b ha (by omega) hw.2⟩

@[simp] theorem Memory.get_set_same {m : Memory} (h : m.wf = true) (p : PhysAddr) (b : Byte) : (m.set p b).get p = b :=
  lookupCell_storeCell_same _ _ h

theorem Memory.get_set_other {m : Memory} (h : m.wf = true) {p q : PhysAddr} (hq : q ≠ p) (b : Byte) :
    (m.set p b).get q = m.get q :=
  lookupCell_storeCell_other b (fun e => hq (BitVec.eq_of_toNat_eq e)) h

theorem Memory.set_wf {m : Memory} (h : m.wf = true) (p : PhysAddr) (b : Byte) : (m.set p b).wf = true :=
  storeCell_wf b p.isLt (Nat.zero_le _) h

theorem reset_mem_wf : State.reset.mem.wf = true := rfl

/-! ### The written set -/

theorem addrsWf_mono {lo lo' : Nat} (h : lo' ≤ lo) : ∀ {l : List Nat}, addrsWf lo l = true → addrsWf lo' l = true
  | [], _ => rfl
  | k :: t, hw => by
    simp only [addrsWf, Bool.and_eq_true, decide_eq_true_eq] at hw ⊢
    exact ⟨⟨by omega, hw.1.2⟩, hw.2⟩

theorem insertAddr_wf {a : Nat} (ha : a < 2 ^ 24) : ∀ {lo : Nat} {l : List Nat},
    lo ≤ a → addrsWf lo l = true → addrsWf lo (insertAddr a l) = true
  | lo, [], hl, _ => by simp [insertAddr, addrsWf, hl]; omega
  | lo, k :: t, hl, hw => by
    have hw' := hw
    simp only [addrsWf, Bool.and_eq_true, decide_eq_true_eq] at hw
    rw [insertAddr]
    split
    · simp only [addrsWf, Bool.and_eq_true, decide_eq_true_eq]
      exact ⟨⟨hl, ha⟩, ⟨by omega, hw.1.2⟩, hw.2⟩
    · split
      · exact hw'
      · simp only [addrsWf, Bool.and_eq_true, decide_eq_true_eq]
        exact ⟨hw.1, insertAddr_wf ha (by omega) hw.2⟩

theorem removeAddr_wf {a : Nat} : ∀ {lo : Nat} {l : List Nat}, addrsWf lo l = true → addrsWf lo (removeAddr a l) = true
  | _, [], _ => rfl
  | lo, k :: t, hw => by
    simp only [addrsWf, Bool.and_eq_true, decide_eq_true_eq] at hw
    rw [removeAddr]
    split
    · exact addrsWf_mono (by omega) hw.2
    · simp only [addrsWf, Bool.and_eq_true, decide_eq_true_eq]
      exact ⟨hw.1, removeAddr_wf hw.2⟩

theorem mem_insertAddr {a c : Nat} : ∀ {l : List Nat}, c ∈ insertAddr a l ↔ c = a ∨ c ∈ l
  | [] => by simp [insertAddr]
  | k :: t => by
    rw [insertAddr]
    split
    · simp
    · split
      · rename_i h; subst h; simp
      · simp only [List.mem_cons, mem_insertAddr (l := t)]; tauto

end Sys2Proof.Machine
end

