-- ==== Sys2Proof/Laws/Word.lean ====
section
/-! SUPPORT. The bytes of a word and their replacement. -/

namespace Sys2Proof

theorem loByte_toNat (w : Word) : (loByte w).toNat = w.toNat % 256 := by
  simp [loByte, BitVec.toNat_setWidth]

theorem hiByte_toNat (w : Word) : (hiByte w).toNat = w.toNat / 256 := by
  have := w.isLt
  simp only [hiByte, BitVec.toNat_setWidth, BitVec.toNat_ushiftRight, Nat.shiftRight_eq_div_pow]
  omega

theorem joinBytes_toNat (hi lo : Byte) : (joinBytes hi lo).toNat = hi.toNat * 256 + lo.toNat := by
  have := lo.isLt
  rw [joinBytes, BitVec.toNat_append, ← Nat.shiftLeft_add_eq_or_of_lt this, Nat.shiftLeft_eq]

@[simp] theorem hiByte_joinBytes (hi lo : Byte) : hiByte (joinBytes hi lo) = hi := by
  apply BitVec.eq_of_toNat_eq
  have := lo.isLt
  rw [hiByte_toNat, joinBytes_toNat]
  omega

@[simp] theorem loByte_joinBytes (hi lo : Byte) : loByte (joinBytes hi lo) = lo := by
  apply BitVec.eq_of_toNat_eq
  have := lo.isLt
  rw [loByte_toNat, joinBytes_toNat]
  omega

@[simp] theorem joinBytes_hiByte_loByte (w : Word) : joinBytes (hiByte w) (loByte w) = w := by
  apply BitVec.eq_of_toNat_eq
  rw [joinBytes_toNat, hiByte_toNat, loByte_toNat]
  omega

theorem eq_joinBytes {w : Word} {hi lo : Byte} (hh : hiByte w = hi) (hl : loByte w = lo) : w = joinBytes hi lo := by
  rw [← hh, ← hl, joinBytes_hiByte_loByte]

namespace Machine

@[simp] theorem hiByte_setHigh (w : Word) (b : Byte) : hiByte (setHigh w b) = b := by simp [setHigh]

@[simp] theorem loByte_setHigh (w : Word) (b : Byte) : loByte (setHigh w b) = loByte w := by simp [setHigh]

@[simp] theorem hiByte_setLow (w : Word) (b : Byte) : hiByte (setLow w b) = hiByte w := by simp [setLow]

@[simp] theorem loByte_setLow (w : Word) (b : Byte) : loByte (setLow w b) = b := by simp [setLow]

end Machine

end Sys2Proof
end

