-- ==== Sys2Proof/Laws/State.lean ====
section
/-! SUPPORT. One lemma per field per update of the state, so that no later proof unfolds a record update. -/

namespace Sys2Proof.Machine

variable (s : State)

/-! ### Registers by their names -/

@[simp] theorem af_a : s.af.a = s.a := rfl
@[simp] theorem af_f : s.af.f = s.f := rfl
@[simp] theorem gp_bc : s.gp.bc = s.bc := rfl
@[simp] theorem gp_de : s.gp.de = s.de := rfl
@[simp] theorem gp_hl : s.gp.hl = s.hl := rfl
@[simp] theorem setA_eq (v : Byte) : s.setA v = s.setAF { s.af with a := v } := rfl
@[simp] theorem setF_eq (f : Flags) : s.setF f = s.setAF { s.af with f := f } := rfl
@[simp] theorem setBC_eq (v : Word) : s.setBC v = s.setGP { s.gp with bc := v } := rfl
@[simp] theorem setDE_eq (v : Word) : s.setDE v = s.setGP { s.gp with de := v } := rfl
@[simp] theorem setHL_eq (v : Word) : s.setHL v = s.setGP { s.gp with hl := v } := rfl
@[simp] theorem advance_eq (n : Nat) : s.advance n = s.jump (s.pcNext n) := rfl
@[simp] theorem xy_ix : s.xy .ix = s.ix := rfl
@[simp] theorem xy_iy : s.xy .iy = s.iy := rfl

/-! ### What each update sets -/

@[simp] theorem af_setAF (x : AF) : (s.setAF x).af = x := by
  cases h : s.afSel <;> simp [State.af, State.setAF, h]
@[simp] theorem a_setAF (x : AF) : (s.setAF x).a = x.a := by rw [← af_a, af_setAF]
@[simp] theorem f_setAF (x : AF) : (s.setAF x).f = x.f := by rw [← af_f, af_setAF]
@[simp] theorem afAlt_setAF (x : AF) : (s.setAF x).afAlt = s.afAlt := by
  cases h : s.afSel <;> simp [State.afAlt, State.setAF, h]
@[simp] theorem gp_setGP (x : GP) : (s.setGP x).gp = x := by
  cases h : s.rfSel <;> simp [State.gp, State.setGP, h]
@[simp] theorem bc_setGP (x : GP) : (s.setGP x).bc = x.bc := by rw [← gp_bc, gp_setGP]
@[simp] theorem de_setGP (x : GP) : (s.setGP x).de = x.de := by rw [← gp_de, gp_setGP]
@[simp] theorem hl_setGP (x : GP) : (s.setGP x).hl = x.hl := by rw [← gp_hl, gp_setGP]
@[simp] theorem gpAlt_setGP (x : GP) : (s.setGP x).gpAlt = s.gpAlt := by
  cases h : s.rfSel <;> simp [State.gpAlt, State.setGP, h]
@[simp] theorem xy_setXY (q : XY) (v : Word) : (s.setXY q v).xy q = v := by cases q <;> rfl
@[simp] theorem ix_setXY (v : Word) : (s.setXY .ix v).ix = v := rfl
@[simp] theorem iy_setXY (v : Word) : (s.setXY .iy v).iy = v := rfl
@[simp] theorem iy_setXY_ix (v : Word) : (s.setXY .ix v).iy = s.iy := rfl
@[simp] theorem ix_setXY_iy (v : Word) : (s.setXY .iy v).ix = s.ix := rfl
@[simp] theorem ssp_setSP (v : Word) : (s.setSP v).ssp = if s.mode = .system then v else s.ssp := rfl
@[simp] theorem usp_setSP (v : Word) : (s.setSP v).usp = if s.mode = .user then v else s.usp := rfl
@[simp] theorem sp_setSP (v : Word) : (s.setSP v).sp = v := by
  have h : (s.setSP v).mode = s.mode := rfl
  cases hm : s.mode <;> simp [State.sp, h, hm]
@[simp] theorem pc_jump (t : Word) : (s.jump t).pc = t := rfl
@[simp] theorem eiShadow_jump (t : Word) : (s.jump t).eiShadow = false := rfl
@[simp] theorem mem_putByte (p : PhysAddr) (b : Byte) : (s.putByte p b).mem = s.mem.set p b := rfl
@[simp] theorem written_putByte (p : PhysAddr) (b : Byte) :
    (s.putByte p b).written = insertAddr p.toNat s.written := rfl
@[simp] theorem ioTrace_ioDone (a : IoAddr) (w : IoWidth) :
    (s.ioDone a w).ioTrace = s.ioTrace ++ [{ addr := a, width := w, value := s.ioValue a w }] := rfl
@[simp] theorem freeCount_drawn : s.drawn.freeCount = s.freeCount + 1 := rfl
@[simp] theorem f_putFlags (g : Flags → Flags) : (s.putFlags g).f =
    { g s.f with b5 := s.anyWord.getLsbD 5, b3 := s.anyWord.getLsbD 3 } := by
  cases h : s.afSel <;> simp [State.putFlags, State.setF, State.f, State.af, State.setAF, State.drawn, h]
@[simp] theorem a_putFlags (g : Flags → Flags) : (s.putFlags g).a = s.a := by
  cases h : s.afSel <;> simp [State.putFlags, State.setF, State.a, State.af, State.setAF, State.drawn, h]
@[simp] theorem afAlt_putFlags (g : Flags → Flags) : (s.putFlags g).afAlt = s.afAlt := by
  cases h : s.afSel <;> simp [State.putFlags, State.setF, State.afAlt, State.setAF, State.drawn, h]
@[simp] theorem gpAlt_setReg8 (g : R8) (v : Byte) : (s.setReg8 g v).gpAlt = s.gpAlt := by
  cases g
  case a => rfl
  all_goals exact gpAlt_setGP s _
@[simp] theorem afAlt_setReg8 (g : R8) (v : Byte) : (s.setReg8 g v).afAlt = s.afAlt := by
  cases g
  case a => exact afAlt_setAF s _
  all_goals rfl
@[simp] theorem f_setReg8 (g : R8) (v : Byte) : (s.setReg8 g v).f = s.f := by
  cases g
  case a => exact f_setAF s _
  all_goals rfl
@[simp] theorem gpAlt_setReg16 (w : Reg16) (v : Word) : (s.setReg16 w v).gpAlt = s.gpAlt := by
  cases w <;> simp [State.setReg16] <;> rfl

/-! ### What each update leaves alone -/

/-! The accumulator and flags in use. -/

@[simp] theorem bankGP0_setAF (x : AF) : (s.setAF x).bankGP0 = s.bankGP0 := rfl
@[simp] theorem bankGP1_setAF (x : AF) : (s.setAF x).bankGP1 = s.bankGP1 := rfl
@[simp] theorem afSel_setAF (x : AF) : (s.setAF x).afSel = s.afSel := rfl
@[simp] theorem rfSel_setAF (x : AF) : (s.setAF x).rfSel = s.rfSel := rfl
@[simp] theorem ix_setAF (x : AF) : (s.setAF x).ix = s.ix := rfl
@[simp] theorem iy_setAF (x : AF) : (s.setAF x).iy = s.iy := rfl
@[simp] theorem ssp_setAF (x : AF) : (s.setAF x).ssp = s.ssp := rfl
@[simp] theorem usp_setAF (x : AF) : (s.setAF x).usp = s.usp := rfl
@[simp] theorem pc_setAF (x : AF) : (s.setAF x).pc = s.pc := rfl
@[simp] theorem i_setAF (x : AF) : (s.setAF x).i = s.i := rfl
@[simp] theorem r_setAF (x : AF) : (s.setAF x).r = s.r := rfl
@[simp] theorem msr_setAF (x : AF) : (s.setAF x).msr = s.msr := rfl
@[simp] theorem isr_setAF (x : AF) : (s.setAF x).isr = s.isr := rfl
@[simp] theorem itvtp_setAF (x : AF) : (s.setAF x).itvtp = s.itvtp := rfl
@[simp] theorem slr_setAF (x : AF) : (s.setAF x).slr = s.slr := rfl
@[simp] theorem iop_setAF (x : AF) : (s.setAF x).iop = s.iop := rfl
@[simp] theorem tcr_setAF (x : AF) : (s.setAF x).tcr = s.tcr := rfl
@[simp] theorem bti_setAF (x : AF) : (s.setAF x).bti = s.bti := rfl
@[simp] theorem btc_setAF (x : AF) : (s.setAF x).btc = s.btc := rfl
@[simp] theorem ccr_setAF (x : AF) : (s.setAF x).ccr = s.ccr := rfl
@[simp] theorem lar_setAF (x : AF) : (s.setAF x).lar = s.lar := rfl
@[simp] theorem eiShadow_setAF (x : AF) : (s.setAF x).eiShadow = s.eiShadow := rfl
@[simp] theorem halted_setAF (x : AF) : (s.setAF x).halted = s.halted := rfl
@[simp] theorem mmuLatch_setAF (x : AF) : (s.setAF x).mmuLatch = s.mmuLatch := rfl
@[simp] theorem mem_setAF (x : AF) : (s.setAF x).mem = s.mem := rfl
@[simp] theorem written_setAF (x : AF) : (s.setAF x).written = s.written := rfl
@[simp] theorem ioTrace_setAF (x : AF) : (s.setAF x).ioTrace = s.ioTrace := rfl
@[simp] theorem freeCount_setAF (x : AF) : (s.setAF x).freeCount = s.freeCount := rfl
@[simp] theorem cfg_setAF (x : AF) : (s.setAF x).cfg = s.cfg := rfl
@[simp] theorem gp_setAF (x : AF) : (s.setAF x).gp = s.gp := rfl
@[simp] theorem gpAlt_setAF (x : AF) : (s.setAF x).gpAlt = s.gpAlt := rfl
@[simp] theorem bc_setAF (x : AF) : (s.setAF x).bc = s.bc := rfl
@[simp] theorem de_setAF (x : AF) : (s.setAF x).de = s.de := rfl
@[simp] theorem hl_setAF (x : AF) : (s.setAF x).hl = s.hl := rfl
@[simp] theorem mode_setAF (x : AF) : (s.setAF x).mode = s.mode := rfl
@[simp] theorem sp_setAF (x : AF) : (s.setAF x).sp = s.sp := rfl
@[simp] theorem curData_setAF (x : AF) : (s.setAF x).curData = s.curData := rfl
@[simp] theorem curProg_setAF (x : AF) : (s.setAF x).curProg = s.curProg := rfl
@[simp] theorem reach_setAF (x : AF) : (s.setAF x).reach = s.reach := rfl
@[simp] theorem translateAt_setAF (x : AF) : (s.setAF x).translateAt = s.translateAt := rfl
@[simp] theorem isMemory_setAF (x : AF) : (s.setAF x).isMemory = s.isMemory := rfl
@[simp] theorem wasWritten_setAF (x : AF) : (s.setAF x).wasWritten = s.wasWritten := rfl
@[simp] theorem anyWord_setAF (x : AF) : (s.setAF x).anyWord = s.anyWord := rfl
@[simp] theorem xy_setAF (x : AF) : (s.setAF x).xy = s.xy := rfl

/-! The byte/word registers in use. -/

@[simp] theorem bankAF0_setGP (x : GP) : (s.setGP x).bankAF0 = s.bankAF0 := rfl
@[simp] theorem bankAF1_setGP (x : GP) : (s.setGP x).bankAF1 = s.bankAF1 := rfl
@[simp] theorem afSel_setGP (x : GP) : (s.setGP x).afSel = s.afSel := rfl
@[simp] theorem rfSel_setGP (x : GP) : (s.setGP x).rfSel = s.rfSel := rfl
@[simp] theorem ix_setGP (x : GP) : (s.setGP x).ix = s.ix := rfl
@[simp] theorem iy_setGP (x : GP) : (s.setGP x).iy = s.iy := rfl
@[simp] theorem ssp_setGP (x : GP) : (s.setGP x).ssp = s.ssp := rfl
@[simp] theorem usp_setGP (x : GP) : (s.setGP x).usp = s.usp := rfl
@[simp] theorem pc_setGP (x : GP) : (s.setGP x).pc = s.pc := rfl
@[simp] theorem i_setGP (x : GP) : (s.setGP x).i = s.i := rfl
@[simp] theorem r_setGP (x : GP) : (s.setGP x).r = s.r := rfl
@[simp] theorem msr_setGP (x : GP) : (s.setGP x).msr = s.msr := rfl
@[simp] theorem isr_setGP (x : GP) : (s.setGP x).isr = s.isr := rfl
@[simp] theorem itvtp_setGP (x : GP) : (s.setGP x).itvtp = s.itvtp := rfl
@[simp] theorem slr_setGP (x : GP) : (s.setGP x).slr = s.slr := rfl
@[simp] theorem iop_setGP (x : GP) : (s.setGP x).iop = s.iop := rfl
@[simp] theorem tcr_setGP (x : GP) : (s.setGP x).tcr = s.tcr := rfl
@[simp] theorem bti_setGP (x : GP) : (s.setGP x).bti = s.bti := rfl
@[simp] theorem btc_setGP (x : GP) : (s.setGP x).btc = s.btc := rfl
@[simp] theorem ccr_setGP (x : GP) : (s.setGP x).ccr = s.ccr := rfl
@[simp] theorem lar_setGP (x : GP) : (s.setGP x).lar = s.lar := rfl
@[simp] theorem eiShadow_setGP (x : GP) : (s.setGP x).eiShadow = s.eiShadow := rfl
@[simp] theorem halted_setGP (x : GP) : (s.setGP x).halted = s.halted := rfl
@[simp] theorem mmuLatch_setGP (x : GP) : (s.setGP x).mmuLatch = s.mmuLatch := rfl
@[simp] theorem mem_setGP (x : GP) : (s.setGP x).mem = s.mem := rfl
@[simp] theorem written_setGP (x : GP) : (s.setGP x).written = s.written := rfl
@[simp] theorem ioTrace_setGP (x : GP) : (s.setGP x).ioTrace = s.ioTrace := rfl
@[simp] theorem freeCount_setGP (x : GP) : (s.setGP x).freeCount = s.freeCount := rfl
@[simp] theorem cfg_setGP (x : GP) : (s.setGP x).cfg = s.cfg := rfl
@[simp] theorem af_setGP (x : GP) : (s.setGP x).af = s.af := rfl
@[simp] theorem afAlt_setGP (x : GP) : (s.setGP x).afAlt = s.afAlt := rfl
@[simp] theorem a_setGP (x : GP) : (s.setGP x).a = s.a := rfl
@[simp] theorem f_setGP (x : GP) : (s.setGP x).f = s.f := rfl
@[simp] theorem mode_setGP (x : GP) : (s.setGP x).mode = s.mode := rfl
@[simp] theorem sp_setGP (x : GP) : (s.setGP x).sp = s.sp := rfl
@[simp] theorem curData_setGP (x : GP) : (s.setGP x).curData = s.curData := rfl
@[simp] theorem curProg_setGP (x : GP) : (s.setGP x).curProg = s.curProg := rfl
@[simp] theorem reach_setGP (x : GP) : (s.setGP x).reach = s.reach := rfl
@[simp] theorem translateAt_setGP (x : GP) : (s.setGP x).translateAt = s.translateAt := rfl
@[simp] theorem isMemory_setGP (x : GP) : (s.setGP x).isMemory = s.isMemory := rfl
@[simp] theorem wasWritten_setGP (x : GP) : (s.setGP x).wasWritten = s.wasWritten := rfl
@[simp] theorem anyWord_setGP (x : GP) : (s.setGP x).anyWord = s.anyWord := rfl
@[simp] theorem xy_setGP (x : GP) : (s.setGP x).xy = s.xy := rfl

/-! An index register. -/

@[simp] theorem bankAF0_setXY (q : XY) (v : Word) : (s.setXY q v).bankAF0 = s.bankAF0 := by cases q <;> rfl
@[simp] theorem bankAF1_setXY (q : XY) (v : Word) : (s.setXY q v).bankAF1 = s.bankAF1 := by cases q <;> rfl
@[simp] theorem bankGP0_setXY (q : XY) (v : Word) : (s.setXY q v).bankGP0 = s.bankGP0 := by cases q <;> rfl
@[simp] theorem bankGP1_setXY (q : XY) (v : Word) : (s.setXY q v).bankGP1 = s.bankGP1 := by cases q <;> rfl
@[simp] theorem afSel_setXY (q : XY) (v : Word) : (s.setXY q v).afSel = s.afSel := by cases q <;> rfl
@[simp] theorem rfSel_setXY (q : XY) (v : Word) : (s.setXY q v).rfSel = s.rfSel := by cases q <;> rfl
@[simp] theorem ssp_setXY (q : XY) (v : Word) : (s.setXY q v).ssp = s.ssp := by cases q <;> rfl
@[simp] theorem usp_setXY (q : XY) (v : Word) : (s.setXY q v).usp = s.usp := by cases q <;> rfl
@[simp] theorem pc_setXY (q : XY) (v : Word) : (s.setXY q v).pc = s.pc := by cases q <;> rfl
@[simp] theorem i_setXY (q : XY) (v : Word) : (s.setXY q v).i = s.i := by cases q <;> rfl
@[simp] theorem r_setXY (q : XY) (v : Word) : (s.setXY q v).r = s.r := by cases q <;> rfl
@[simp] theorem msr_setXY (q : XY) (v : Word) : (s.setXY q v).msr = s.msr := by cases q <;> rfl
@[simp] theorem isr_setXY (q : XY) (v : Word) : (s.setXY q v).isr = s.isr := by cases q <;> rfl
@[simp] theorem itvtp_setXY (q : XY) (v : Word) : (s.setXY q v).itvtp = s.itvtp := by cases q <;> rfl
@[simp] theorem slr_setXY (q : XY) (v : Word) : (s.setXY q v).slr = s.slr := by cases q <;> rfl
@[simp] theorem iop_setXY (q : XY) (v : Word) : (s.setXY q v).iop = s.iop := by cases q <;> rfl
@[simp] theorem tcr_setXY (q : XY) (v : Word) : (s.setXY q v).tcr = s.tcr := by cases q <;> rfl
@[simp] theorem bti_setXY (q : XY) (v : Word) : (s.setXY q v).bti = s.bti := by cases q <;> rfl
@[simp] theorem btc_setXY (q : XY) (v : Word) : (s.setXY q v).btc = s.btc := by cases q <;> rfl
@[simp] theorem ccr_setXY (q : XY) (v : Word) : (s.setXY q v).ccr = s.ccr := by cases q <;> rfl
@[simp] theorem lar_setXY (q : XY) (v : Word) : (s.setXY q v).lar = s.lar := by cases q <;> rfl
@[simp] theorem eiShadow_setXY (q : XY) (v : Word) : (s.setXY q v).eiShadow = s.eiShadow := by cases q <;> rfl
@[simp] theorem halted_setXY (q : XY) (v : Word) : (s.setXY q v).halted = s.halted := by cases q <;> rfl
@[simp] theorem mmuLatch_setXY (q : XY) (v : Word) : (s.setXY q v).mmuLatch = s.mmuLatch := by cases q <;> rfl
@[simp] theorem mem_setXY (q : XY) (v : Word) : (s.setXY q v).mem = s.mem := by cases q <;> rfl
@[simp] theorem written_setXY (q : XY) (v : Word) : (s.setXY q v).written = s.written := by cases q <;> rfl
@[simp] theorem ioTrace_setXY (q : XY) (v : Word) : (s.setXY q v).ioTrace = s.ioTrace := by cases q <;> rfl
@[simp] theorem freeCount_setXY (q : XY) (v : Word) : (s.setXY q v).freeCount = s.freeCount := by cases q <;> rfl
@[simp] theorem cfg_setXY (q : XY) (v : Word) : (s.setXY q v).cfg = s.cfg := by cases q <;> rfl
@[simp] theorem af_setXY (q : XY) (v : Word) : (s.setXY q v).af = s.af := by cases q <;> rfl
@[simp] theorem afAlt_setXY (q : XY) (v : Word) : (s.setXY q v).afAlt = s.afAlt := by cases q <;> rfl
@[simp] theorem gp_setXY (q : XY) (v : Word) : (s.setXY q v).gp = s.gp := by cases q <;> rfl
@[simp] theorem gpAlt_setXY (q : XY) (v : Word) : (s.setXY q v).gpAlt = s.gpAlt := by cases q <;> rfl
@[simp] theorem a_setXY (q : XY) (v : Word) : (s.setXY q v).a = s.a := by cases q <;> rfl
@[simp] theorem f_setXY (q : XY) (v : Word) : (s.setXY q v).f = s.f := by cases q <;> rfl
@[simp] theorem bc_setXY (q : XY) (v : Word) : (s.setXY q v).bc = s.bc := by cases q <;> rfl
@[simp] theorem de_setXY (q : XY) (v : Word) : (s.setXY q v).de = s.de := by cases q <;> rfl
@[simp] theorem hl_setXY (q : XY) (v : Word) : (s.setXY q v).hl = s.hl := by cases q <;> rfl
@[simp] theorem mode_setXY (q : XY) (v : Word) : (s.setXY q v).mode = s.mode := by cases q <;> rfl
@[simp] theorem sp_setXY (q : XY) (v : Word) : (s.setXY q v).sp = s.sp := by cases q <;> rfl
@[simp] theorem curData_setXY (q : XY) (v : Word) : (s.setXY q v).curData = s.curData := by cases q <;> rfl
@[simp] theorem curProg_setXY (q : XY) (v : Word) : (s.setXY q v).curProg = s.curProg := by cases q <;> rfl
@[simp] theorem reach_setXY (q : XY) (v : Word) : (s.setXY q v).reach = s.reach := by cases q <;> rfl
@[simp] theorem translateAt_setXY (q : XY) (v : Word) : (s.setXY q v).translateAt = s.translateAt := by cases q <;> rfl
@[simp] theorem isMemory_setXY (q : XY) (v : Word) : (s.setXY q v).isMemory = s.isMemory := by cases q <;> rfl
@[simp] theorem wasWritten_setXY (q : XY) (v : Word) : (s.setXY q v).wasWritten = s.wasWritten := by cases q <;> rfl
@[simp] theorem anyWord_setXY (q : XY) (v : Word) : (s.setXY q v).anyWord = s.anyWord := by cases q <;> rfl

/-! The stack pointer in use. -/

@[simp] theorem bankAF0_setSP (v : Word) : (s.setSP v).bankAF0 = s.bankAF0 := rfl
@[simp] theorem bankAF1_setSP (v : Word) : (s.setSP v).bankAF1 = s.bankAF1 := rfl
@[simp] theorem bankGP0_setSP (v : Word) : (s.setSP v).bankGP0 = s.bankGP0 := rfl
@[simp] theorem bankGP1_setSP (v : Word) : (s.setSP v).bankGP1 = s.bankGP1 := rfl
@[simp] theorem afSel_setSP (v : Word) : (s.setSP v).afSel = s.afSel := rfl
@[simp] theorem rfSel_setSP (v : Word) : (s.setSP v).rfSel = s.rfSel := rfl
@[simp] theorem ix_setSP (v : Word) : (s.setSP v).ix = s.ix := rfl
@[simp] theorem iy_setSP (v : Word) : (s.setSP v).iy = s.iy := rfl
@[simp] theorem pc_setSP (v : Word) : (s.setSP v).pc = s.pc := rfl
@[simp] theorem i_setSP (v : Word) : (s.setSP v).i = s.i := rfl
@[simp] theorem r_setSP (v : Word) : (s.setSP v).r = s.r := rfl
@[simp] theorem msr_setSP (v : Word) : (s.setSP v).msr = s.msr := rfl
@[simp] theorem isr_setSP (v : Word) : (s.setSP v).isr = s.isr := rfl
@[simp] theorem itvtp_setSP (v : Word) : (s.setSP v).itvtp = s.itvtp := rfl
@[simp] theorem slr_setSP (v : Word) : (s.setSP v).slr = s.slr := rfl
@[simp] theorem iop_setSP (v : Word) : (s.setSP v).iop = s.iop := rfl
@[simp] theorem tcr_setSP (v : Word) : (s.setSP v).tcr = s.tcr := rfl
@[simp] theorem bti_setSP (v : Word) : (s.setSP v).bti = s.bti := rfl
@[simp] theorem btc_setSP (v : Word) : (s.setSP v).btc = s.btc := rfl
@[simp] theorem ccr_setSP (v : Word) : (s.setSP v).ccr = s.ccr := rfl
@[simp] theorem lar_setSP (v : Word) : (s.setSP v).lar = s.lar := rfl
@[simp] theorem eiShadow_setSP (v : Word) : (s.setSP v).eiShadow = s.eiShadow := rfl
@[simp] theorem halted_setSP (v : Word) : (s.setSP v).halted = s.halted := rfl
@[simp] theorem mmuLatch_setSP (v : Word) : (s.setSP v).mmuLatch = s.mmuLatch := rfl
@[simp] theorem mem_setSP (v : Word) : (s.setSP v).mem = s.mem := rfl
@[simp] theorem written_setSP (v : Word) : (s.setSP v).written = s.written := rfl
@[simp] theorem ioTrace_setSP (v : Word) : (s.setSP v).ioTrace = s.ioTrace := rfl
@[simp] theorem freeCount_setSP (v : Word) : (s.setSP v).freeCount = s.freeCount := rfl
@[simp] theorem cfg_setSP (v : Word) : (s.setSP v).cfg = s.cfg := rfl
@[simp] theorem af_setSP (v : Word) : (s.setSP v).af = s.af := rfl
@[simp] theorem afAlt_setSP (v : Word) : (s.setSP v).afAlt = s.afAlt := rfl
@[simp] theorem gp_setSP (v : Word) : (s.setSP v).gp = s.gp := rfl
@[simp] theorem gpAlt_setSP (v : Word) : (s.setSP v).gpAlt = s.gpAlt := rfl
@[simp] theorem a_setSP (v : Word) : (s.setSP v).a = s.a := rfl
@[simp] theorem f_setSP (v : Word) : (s.setSP v).f = s.f := rfl
@[simp] theorem bc_setSP (v : Word) : (s.setSP v).bc = s.bc := rfl
@[simp] theorem de_setSP (v : Word) : (s.setSP v).de = s.de := rfl
@[simp] theorem hl_setSP (v : Word) : (s.setSP v).hl = s.hl := rfl
@[simp] theorem mode_setSP (v : Word) : (s.setSP v).mode = s.mode := rfl
@[simp] theorem curData_setSP (v : Word) : (s.setSP v).curData = s.curData := rfl
@[simp] theorem curProg_setSP (v : Word) : (s.setSP v).curProg = s.curProg := rfl
@[simp] theorem reach_setSP (v : Word) : (s.setSP v).reach = s.reach := rfl
@[simp] theorem translateAt_setSP (v : Word) : (s.setSP v).translateAt = s.translateAt := rfl
@[simp] theorem isMemory_setSP (v : Word) : (s.setSP v).isMemory = s.isMemory := rfl
@[simp] theorem wasWritten_setSP (v : Word) : (s.setSP v).wasWritten = s.wasWritten := rfl
@[simp] theorem anyWord_setSP (v : Word) : (s.setSP v).anyWord = s.anyWord := rfl
@[simp] theorem xy_setSP (v : Word) : (s.setSP v).xy = s.xy := rfl

/-! An unconstrained value drawn. -/

@[simp] theorem bankAF0_drawn : s.drawn.bankAF0 = s.bankAF0 := rfl
@[simp] theorem bankAF1_drawn : s.drawn.bankAF1 = s.bankAF1 := rfl
@[simp] theorem bankGP0_drawn : s.drawn.bankGP0 = s.bankGP0 := rfl
@[simp] theorem bankGP1_drawn : s.drawn.bankGP1 = s.bankGP1 := rfl
@[simp] theorem afSel_drawn : s.drawn.afSel = s.afSel := rfl
@[simp] theorem rfSel_drawn : s.drawn.rfSel = s.rfSel := rfl
@[simp] theorem ix_drawn : s.drawn.ix = s.ix := rfl
@[simp] theorem iy_drawn : s.drawn.iy = s.iy := rfl
@[simp] theorem ssp_drawn : s.drawn.ssp = s.ssp := rfl
@[simp] theorem usp_drawn : s.drawn.usp = s.usp := rfl
@[simp] theorem pc_drawn : s.drawn.pc = s.pc := rfl
@[simp] theorem i_drawn : s.drawn.i = s.i := rfl
@[simp] theorem r_drawn : s.drawn.r = s.r := rfl
@[simp] theorem msr_drawn : s.drawn.msr = s.msr := rfl
@[simp] theorem isr_drawn : s.drawn.isr = s.isr := rfl
@[simp] theorem itvtp_drawn : s.drawn.itvtp = s.itvtp := rfl
@[simp] theorem slr_drawn : s.drawn.slr = s.slr := rfl
@[simp] theorem iop_drawn : s.drawn.iop = s.iop := rfl
@[simp] theorem tcr_drawn : s.drawn.tcr = s.tcr := rfl
@[simp] theorem bti_drawn : s.drawn.bti = s.bti := rfl
@[simp] theorem btc_drawn : s.drawn.btc = s.btc := rfl
@[simp] theorem ccr_drawn : s.drawn.ccr = s.ccr := rfl
@[simp] theorem lar_drawn : s.drawn.lar = s.lar := rfl
@[simp] theorem eiShadow_drawn : s.drawn.eiShadow = s.eiShadow := rfl
@[simp] theorem halted_drawn : s.drawn.halted = s.halted := rfl
@[simp] theorem mmuLatch_drawn : s.drawn.mmuLatch = s.mmuLatch := rfl
@[simp] theorem mem_drawn : s.drawn.mem = s.mem := rfl
@[simp] theorem written_drawn : s.drawn.written = s.written := rfl
@[simp] theorem ioTrace_drawn : s.drawn.ioTrace = s.ioTrace := rfl
@[simp] theorem cfg_drawn : s.drawn.cfg = s.cfg := rfl
@[simp] theorem af_drawn : s.drawn.af = s.af := rfl
@[simp] theorem afAlt_drawn : s.drawn.afAlt = s.afAlt := rfl
@[simp] theorem gp_drawn : s.drawn.gp = s.gp := rfl
@[simp] theorem gpAlt_drawn : s.drawn.gpAlt = s.gpAlt := rfl
@[simp] theorem a_drawn : s.drawn.a = s.a := rfl
@[simp] theorem f_drawn : s.drawn.f = s.f := rfl
@[simp] theorem bc_drawn : s.drawn.bc = s.bc := rfl
@[simp] theorem de_drawn : s.drawn.de = s.de := rfl
@[simp] theorem hl_drawn : s.drawn.hl = s.hl := rfl
@[simp] theorem mode_drawn : s.drawn.mode = s.mode := rfl
@[simp] theorem sp_drawn : s.drawn.sp = s.sp := rfl
@[simp] theorem curData_drawn : s.drawn.curData = s.curData := rfl
@[simp] theorem curProg_drawn : s.drawn.curProg = s.curProg := rfl
@[simp] theorem reach_drawn : s.drawn.reach = s.reach := rfl
@[simp] theorem translateAt_drawn : s.drawn.translateAt = s.translateAt := rfl
@[simp] theorem isMemory_drawn : s.drawn.isMemory = s.isMemory := rfl
@[simp] theorem wasWritten_drawn : s.drawn.wasWritten = s.wasWritten := rfl
@[simp] theorem xy_drawn : s.drawn.xy = s.xy := rfl

/-! The end of an instruction. -/

@[simp] theorem bankAF0_jump (t : Word) : (s.jump t).bankAF0 = s.bankAF0 := rfl
@[simp] theorem bankAF1_jump (t : Word) : (s.jump t).bankAF1 = s.bankAF1 := rfl
@[simp] theorem bankGP0_jump (t : Word) : (s.jump t).bankGP0 = s.bankGP0 := rfl
@[simp] theorem bankGP1_jump (t : Word) : (s.jump t).bankGP1 = s.bankGP1 := rfl
@[simp] theorem afSel_jump (t : Word) : (s.jump t).afSel = s.afSel := rfl
@[simp] theorem rfSel_jump (t : Word) : (s.jump t).rfSel = s.rfSel := rfl
@[simp] theorem ix_jump (t : Word) : (s.jump t).ix = s.ix := rfl
@[simp] theorem iy_jump (t : Word) : (s.jump t).iy = s.iy := rfl
@[simp] theorem ssp_jump (t : Word) : (s.jump t).ssp = s.ssp := rfl
@[simp] theorem usp_jump (t : Word) : (s.jump t).usp = s.usp := rfl
@[simp] theorem i_jump (t : Word) : (s.jump t).i = s.i := rfl
@[simp] theorem r_jump (t : Word) : (s.jump t).r = s.r := rfl
@[simp] theorem msr_jump (t : Word) : (s.jump t).msr = s.msr := rfl
@[simp] theorem isr_jump (t : Word) : (s.jump t).isr = s.isr := rfl
@[simp] theorem itvtp_jump (t : Word) : (s.jump t).itvtp = s.itvtp := rfl
@[simp] theorem slr_jump (t : Word) : (s.jump t).slr = s.slr := rfl
@[simp] theorem iop_jump (t : Word) : (s.jump t).iop = s.iop := rfl
@[simp] theorem tcr_jump (t : Word) : (s.jump t).tcr = s.tcr := rfl
@[simp] theorem bti_jump (t : Word) : (s.jump t).bti = s.bti := rfl
@[simp] theorem btc_jump (t : Word) : (s.jump t).btc = s.btc := rfl
@[simp] theorem ccr_jump (t : Word) : (s.jump t).ccr = s.ccr := rfl
@[simp] theorem lar_jump (t : Word) : (s.jump t).lar = s.lar := rfl
@[simp] theorem halted_jump (t : Word) : (s.jump t).halted = s.halted := rfl
@[simp] theorem mmuLatch_jump (t : Word) : (s.jump t).mmuLatch = s.mmuLatch := rfl
@[simp] theorem mem_jump (t : Word) : (s.jump t).mem = s.mem := rfl
@[simp] theorem written_jump (t : Word) : (s.jump t).written = s.written := rfl
@[simp] theorem ioTrace_jump (t : Word) : (s.jump t).ioTrace = s.ioTrace := rfl
@[simp] theorem freeCount_jump (t : Word) : (s.jump t).freeCount = s.freeCount := rfl
@[simp] theorem cfg_jump (t : Word) : (s.jump t).cfg = s.cfg := rfl
@[simp] theorem af_jump (t : Word) : (s.jump t).af = s.af := rfl
@[simp] theorem afAlt_jump (t : Word) : (s.jump t).afAlt = s.afAlt := rfl
@[simp] theorem gp_jump (t : Word) : (s.jump t).gp = s.gp := rfl
@[simp] theorem gpAlt_jump (t : Word) : (s.jump t).gpAlt = s.gpAlt := rfl
@[simp] theorem a_jump (t : Word) : (s.jump t).a = s.a := rfl
@[simp] theorem f_jump (t : Word) : (s.jump t).f = s.f := rfl
@[simp] theorem bc_jump (t : Word) : (s.jump t).bc = s.bc := rfl
@[simp] theorem de_jump (t : Word) : (s.jump t).de = s.de := rfl
@[simp] theorem hl_jump (t : Word) : (s.jump t).hl = s.hl := rfl
@[simp] theorem mode_jump (t : Word) : (s.jump t).mode = s.mode := rfl
@[simp] theorem sp_jump (t : Word) : (s.jump t).sp = s.sp := rfl
@[simp] theorem curData_jump (t : Word) : (s.jump t).curData = s.curData := rfl
@[simp] theorem curProg_jump (t : Word) : (s.jump t).curProg = s.curProg := rfl
@[simp] theorem reach_jump (t : Word) : (s.jump t).reach = s.reach := rfl
@[simp] theorem translateAt_jump (t : Word) : (s.jump t).translateAt = s.translateAt := rfl
@[simp] theorem isMemory_jump (t : Word) : (s.jump t).isMemory = s.isMemory := rfl
@[simp] theorem wasWritten_jump (t : Word) : (s.jump t).wasWritten = s.wasWritten := rfl
@[simp] theorem anyWord_jump (t : Word) : (s.jump t).anyWord = s.anyWord := rfl
@[simp] theorem xy_jump (t : Word) : (s.jump t).xy = s.xy := rfl

/-! A byte stored. -/

@[simp] theorem bankAF0_putByte (p : PhysAddr) (b : Byte) : (s.putByte p b).bankAF0 = s.bankAF0 := rfl
@[simp] theorem bankAF1_putByte (p : PhysAddr) (b : Byte) : (s.putByte p b).bankAF1 = s.bankAF1 := rfl
@[simp] theorem bankGP0_putByte (p : PhysAddr) (b : Byte) : (s.putByte p b).bankGP0 = s.bankGP0 := rfl
@[simp] theorem bankGP1_putByte (p : PhysAddr) (b : Byte) : (s.putByte p b).bankGP1 = s.bankGP1 := rfl
@[simp] theorem afSel_putByte (p : PhysAddr) (b : Byte) : (s.putByte p b).afSel = s.afSel := rfl
@[simp] theorem rfSel_putByte (p : PhysAddr) (b : Byte) : (s.putByte p b).rfSel = s.rfSel := rfl
@[simp] theorem ix_putByte (p : PhysAddr) (b : Byte) : (s.putByte p b).ix = s.ix := rfl
@[simp] theorem iy_putByte (p : PhysAddr) (b : Byte) : (s.putByte p b).iy = s.iy := rfl
@[simp] theorem ssp_putByte (p : PhysAddr) (b : Byte) : (s.putByte p b).ssp = s.ssp := rfl
@[simp] theorem usp_putByte (p : PhysAddr) (b : Byte) : (s.putByte p b).usp = s.usp := rfl
@[simp] theorem pc_putByte (p : PhysAddr) (b : Byte) : (s.putByte p b).pc = s.pc := rfl
@[simp] theorem i_putByte (p : PhysAddr) (b : Byte) : (s.putByte p b).i = s.i := rfl
@[simp] theorem r_putByte (p : PhysAddr) (b : Byte) : (s.putByte p b).r = s.r := rfl
@[simp] theorem msr_putByte (p : PhysAddr) (b : Byte) : (s.putByte p b).msr = s.msr := rfl
@[simp] theorem isr_putByte (p : PhysAddr) (b : Byte) : (s.putByte p b).isr = s.isr := rfl
@[simp] theorem itvtp_putByte (p : PhysAddr) (b : Byte) : (s.putByte p b).itvtp = s.itvtp := rfl
@[simp] theorem slr_putByte (p : PhysAddr) (b : Byte) : (s.putByte p b).slr = s.slr := rfl
@[simp] theorem iop_putByte (p : PhysAddr) (b : Byte) : (s.putByte p b).iop = s.iop := rfl
@[simp] theorem tcr_putByte (p : PhysAddr) (b : Byte) : (s.putByte p b).tcr = s.tcr := rfl
@[simp] theorem bti_putByte (p : PhysAddr) (b : Byte) : (s.putByte p b).bti = s.bti := rfl
@[simp] theorem btc_putByte (p : PhysAddr) (b : Byte) : (s.putByte p b).btc = s.btc := rfl
@[simp] theorem ccr_putByte (p : PhysAddr) (b : Byte) : (s.putByte p b).ccr = s.ccr := rfl
@[simp] theorem lar_putByte (p : PhysAddr) (b : Byte) : (s.putByte p b).lar = s.lar := rfl
@[simp] theorem eiShadow_putByte (p : PhysAddr) (b : Byte) : (s.putByte p b).eiShadow = s.eiShadow := rfl
@[simp] theorem halted_putByte (p : PhysAddr) (b : Byte) : (s.putByte p b).halted = s.halted := rfl
@[simp] theorem mmuLatch_putByte (p : PhysAddr) (b : Byte) : (s.putByte p b).mmuLatch = s.mmuLatch := rfl
@[simp] theorem ioTrace_putByte (p : PhysAddr) (b : Byte) : (s.putByte p b).ioTrace = s.ioTrace := rfl
@[simp] theorem freeCount_putByte (p : PhysAddr) (b : Byte) : (s.putByte p b).freeCount = s.freeCount := rfl
@[simp] theorem cfg_putByte (p : PhysAddr) (b : Byte) : (s.putByte p b).cfg = s.cfg := rfl
@[simp] theorem af_putByte (p : PhysAddr) (b : Byte) : (s.putByte p b).af = s.af := rfl
@[simp] theorem afAlt_putByte (p : PhysAddr) (b : Byte) : (s.putByte p b).afAlt = s.afAlt := rfl
@[simp] theorem gp_putByte (p : PhysAddr) (b : Byte) : (s.putByte p b).gp = s.gp := rfl
@[simp] theorem gpAlt_putByte (p : PhysAddr) (b : Byte) : (s.putByte p b).gpAlt = s.gpAlt := rfl
@[simp] theorem a_putByte (p : PhysAddr) (b : Byte) : (s.putByte p b).a = s.a := rfl
@[simp] theorem f_putByte (p : PhysAddr) (b : Byte) : (s.putByte p b).f = s.f := rfl
@[simp] theorem bc_putByte (p : PhysAddr) (b : Byte) : (s.putByte p b).bc = s.bc := rfl
@[simp] theorem de_putByte (p : PhysAddr) (b : Byte) : (s.putByte p b).de = s.de := rfl
@[simp] theorem hl_putByte (p : PhysAddr) (b : Byte) : (s.putByte p b).hl = s.hl := rfl
@[simp] theorem mode_putByte (p : PhysAddr) (b : Byte) : (s.putByte p b).mode = s.mode := rfl
@[simp] theorem sp_putByte (p : PhysAddr) (b : Byte) : (s.putByte p b).sp = s.sp := rfl
@[simp] theorem curData_putByte (p : PhysAddr) (b : Byte) : (s.putByte p b).curData = s.curData := rfl
@[simp] theorem curProg_putByte (p : PhysAddr) (b : Byte) : (s.putByte p b).curProg = s.curProg := rfl
@[simp] theorem reach_putByte (p : PhysAddr) (b : Byte) : (s.putByte p b).reach = s.reach := rfl
@[simp] theorem translateAt_putByte (p : PhysAddr) (b : Byte) : (s.putByte p b).translateAt = s.translateAt := rfl
@[simp] theorem isMemory_putByte (p : PhysAddr) (b : Byte) : (s.putByte p b).isMemory = s.isMemory := rfl
@[simp] theorem anyWord_putByte (p : PhysAddr) (b : Byte) : (s.putByte p b).anyWord = s.anyWord := rfl
@[simp] theorem xy_putByte (p : PhysAddr) (b : Byte) : (s.putByte p b).xy = s.xy := rfl

/-! An input transaction. -/

@[simp] theorem bankAF0_ioDone (a : IoAddr) (w : IoWidth) : (s.ioDone a w).bankAF0 = s.bankAF0 := rfl
@[simp] theorem bankAF1_ioDone (a : IoAddr) (w : IoWidth) : (s.ioDone a w).bankAF1 = s.bankAF1 := rfl
@[simp] theorem bankGP0_ioDone (a : IoAddr) (w : IoWidth) : (s.ioDone a w).bankGP0 = s.bankGP0 := rfl
@[simp] theorem bankGP1_ioDone (a : IoAddr) (w : IoWidth) : (s.ioDone a w).bankGP1 = s.bankGP1 := rfl
@[simp] theorem afSel_ioDone (a : IoAddr) (w : IoWidth) : (s.ioDone a w).afSel = s.afSel := rfl
@[simp] theorem rfSel_ioDone (a : IoAddr) (w : IoWidth) : (s.ioDone a w).rfSel = s.rfSel := rfl
@[simp] theorem ix_ioDone (a : IoAddr) (w : IoWidth) : (s.ioDone a w).ix = s.ix := rfl
@[simp] theorem iy_ioDone (a : IoAddr) (w : IoWidth) : (s.ioDone a w).iy = s.iy := rfl
@[simp] theorem ssp_ioDone (a : IoAddr) (w : IoWidth) : (s.ioDone a w).ssp = s.ssp := rfl
@[simp] theorem usp_ioDone (a : IoAddr) (w : IoWidth) : (s.ioDone a w).usp = s.usp := rfl
@[simp] theorem pc_ioDone (a : IoAddr) (w : IoWidth) : (s.ioDone a w).pc = s.pc := rfl
@[simp] theorem i_ioDone (a : IoAddr) (w : IoWidth) : (s.ioDone a w).i = s.i := rfl
@[simp] theorem r_ioDone (a : IoAddr) (w : IoWidth) : (s.ioDone a w).r = s.r := rfl
@[simp] theorem msr_ioDone (a : IoAddr) (w : IoWidth) : (s.ioDone a w).msr = s.msr := rfl
@[simp] theorem isr_ioDone (a : IoAddr) (w : IoWidth) : (s.ioDone a w).isr = s.isr := rfl
@[simp] theorem itvtp_ioDone (a : IoAddr) (w : IoWidth) : (s.ioDone a w).itvtp = s.itvtp := rfl
@[simp] theorem slr_ioDone (a : IoAddr) (w : IoWidth) : (s.ioDone a w).slr = s.slr := rfl
@[simp] theorem iop_ioDone (a : IoAddr) (w : IoWidth) : (s.ioDone a w).iop = s.iop := rfl
@[simp] theorem tcr_ioDone (a : IoAddr) (w : IoWidth) : (s.ioDone a w).tcr = s.tcr := rfl
@[simp] theorem bti_ioDone (a : IoAddr) (w : IoWidth) : (s.ioDone a w).bti = s.bti := rfl
@[simp] theorem btc_ioDone (a : IoAddr) (w : IoWidth) : (s.ioDone a w).btc = s.btc := rfl
@[simp] theorem ccr_ioDone (a : IoAddr) (w : IoWidth) : (s.ioDone a w).ccr = s.ccr := rfl
@[simp] theorem lar_ioDone (a : IoAddr) (w : IoWidth) : (s.ioDone a w).lar = s.lar := rfl
@[simp] theorem eiShadow_ioDone (a : IoAddr) (w : IoWidth) : (s.ioDone a w).eiShadow = s.eiShadow := rfl
@[simp] theorem halted_ioDone (a : IoAddr) (w : IoWidth) : (s.ioDone a w).halted = s.halted := rfl
@[simp] theorem mmuLatch_ioDone (a : IoAddr) (w : IoWidth) : (s.ioDone a w).mmuLatch = s.mmuLatch := rfl
@[simp] theorem mem_ioDone (a : IoAddr) (w : IoWidth) : (s.ioDone a w).mem = s.mem := rfl
@[simp] theorem written_ioDone (a : IoAddr) (w : IoWidth) : (s.ioDone a w).written = s.written := rfl
@[simp] theorem freeCount_ioDone (a : IoAddr) (w : IoWidth) : (s.ioDone a w).freeCount = s.freeCount := rfl
@[simp] theorem cfg_ioDone (a : IoAddr) (w : IoWidth) : (s.ioDone a w).cfg = s.cfg := rfl
@[simp] theorem af_ioDone (a : IoAddr) (w : IoWidth) : (s.ioDone a w).af = s.af := rfl
@[simp] theorem afAlt_ioDone (a : IoAddr) (w : IoWidth) : (s.ioDone a w).afAlt = s.afAlt := rfl
@[simp] theorem gp_ioDone (a : IoAddr) (w : IoWidth) : (s.ioDone a w).gp = s.gp := rfl
@[simp] theorem gpAlt_ioDone (a : IoAddr) (w : IoWidth) : (s.ioDone a w).gpAlt = s.gpAlt := rfl
@[simp] theorem a_ioDone (a : IoAddr) (w : IoWidth) : (s.ioDone a w).a = s.a := rfl
@[simp] theorem f_ioDone (a : IoAddr) (w : IoWidth) : (s.ioDone a w).f = s.f := rfl
@[simp] theorem bc_ioDone (a : IoAddr) (w : IoWidth) : (s.ioDone a w).bc = s.bc := rfl
@[simp] theorem de_ioDone (a : IoAddr) (w : IoWidth) : (s.ioDone a w).de = s.de := rfl
@[simp] theorem hl_ioDone (a : IoAddr) (w : IoWidth) : (s.ioDone a w).hl = s.hl := rfl
@[simp] theorem mode_ioDone (a : IoAddr) (w : IoWidth) : (s.ioDone a w).mode = s.mode := rfl
@[simp] theorem sp_ioDone (a : IoAddr) (w : IoWidth) : (s.ioDone a w).sp = s.sp := rfl
@[simp] theorem curData_ioDone (a : IoAddr) (w : IoWidth) : (s.ioDone a w).curData = s.curData := rfl
@[simp] theorem curProg_ioDone (a : IoAddr) (w : IoWidth) : (s.ioDone a w).curProg = s.curProg := rfl
@[simp] theorem reach_ioDone (a : IoAddr) (w : IoWidth) : (s.ioDone a w).reach = s.reach := rfl
@[simp] theorem translateAt_ioDone (a : IoAddr) (w : IoWidth) : (s.ioDone a w).translateAt = s.translateAt := rfl
@[simp] theorem isMemory_ioDone (a : IoAddr) (w : IoWidth) : (s.ioDone a w).isMemory = s.isMemory := rfl
@[simp] theorem wasWritten_ioDone (a : IoAddr) (w : IoWidth) : (s.ioDone a w).wasWritten = s.wasWritten := rfl
@[simp] theorem anyWord_ioDone (a : IoAddr) (w : IoWidth) : (s.ioDone a w).anyWord = s.anyWord := rfl
@[simp] theorem xy_ioDone (a : IoAddr) (w : IoWidth) : (s.ioDone a w).xy = s.xy := rfl

/-! A byte register. -/

@[simp] theorem afSel_setReg8 (g : R8) (v : Byte) : (s.setReg8 g v).afSel = s.afSel := by cases g <;> rfl
@[simp] theorem rfSel_setReg8 (g : R8) (v : Byte) : (s.setReg8 g v).rfSel = s.rfSel := by cases g <;> rfl
@[simp] theorem ix_setReg8 (g : R8) (v : Byte) : (s.setReg8 g v).ix = s.ix := by cases g <;> rfl
@[simp] theorem iy_setReg8 (g : R8) (v : Byte) : (s.setReg8 g v).iy = s.iy := by cases g <;> rfl
@[simp] theorem ssp_setReg8 (g : R8) (v : Byte) : (s.setReg8 g v).ssp = s.ssp := by cases g <;> rfl
@[simp] theorem usp_setReg8 (g : R8) (v : Byte) : (s.setReg8 g v).usp = s.usp := by cases g <;> rfl
@[simp] theorem pc_setReg8 (g : R8) (v : Byte) : (s.setReg8 g v).pc = s.pc := by cases g <;> rfl
@[simp] theorem i_setReg8 (g : R8) (v : Byte) : (s.setReg8 g v).i = s.i := by cases g <;> rfl
@[simp] theorem r_setReg8 (g : R8) (v : Byte) : (s.setReg8 g v).r = s.r := by cases g <;> rfl
@[simp] theorem msr_setReg8 (g : R8) (v : Byte) : (s.setReg8 g v).msr = s.msr := by cases g <;> rfl
@[simp] theorem isr_setReg8 (g : R8) (v : Byte) : (s.setReg8 g v).isr = s.isr := by cases g <;> rfl
@[simp] theorem itvtp_setReg8 (g : R8) (v : Byte) : (s.setReg8 g v).itvtp = s.itvtp := by cases g <;> rfl
@[simp] theorem slr_setReg8 (g : R8) (v : Byte) : (s.setReg8 g v).slr = s.slr := by cases g <;> rfl
@[simp] theorem iop_setReg8 (g : R8) (v : Byte) : (s.setReg8 g v).iop = s.iop := by cases g <;> rfl
@[simp] theorem tcr_setReg8 (g : R8) (v : Byte) : (s.setReg8 g v).tcr = s.tcr := by cases g <;> rfl
@[simp] theorem bti_setReg8 (g : R8) (v : Byte) : (s.setReg8 g v).bti = s.bti := by cases g <;> rfl
@[simp] theorem btc_setReg8 (g : R8) (v : Byte) : (s.setReg8 g v).btc = s.btc := by cases g <;> rfl
@[simp] theorem ccr_setReg8 (g : R8) (v : Byte) : (s.setReg8 g v).ccr = s.ccr := by cases g <;> rfl
@[simp] theorem lar_setReg8 (g : R8) (v : Byte) : (s.setReg8 g v).lar = s.lar := by cases g <;> rfl
@[simp] theorem eiShadow_setReg8 (g : R8) (v : Byte) : (s.setReg8 g v).eiShadow = s.eiShadow := by cases g <;> rfl
@[simp] theorem halted_setReg8 (g : R8) (v : Byte) : (s.setReg8 g v).halted = s.halted := by cases g <;> rfl
@[simp] theorem mmuLatch_setReg8 (g : R8) (v : Byte) : (s.setReg8 g v).mmuLatch = s.mmuLatch := by cases g <;> rfl
@[simp] theorem mem_setReg8 (g : R8) (v : Byte) : (s.setReg8 g v).mem = s.mem := by cases g <;> rfl
@[simp] theorem written_setReg8 (g : R8) (v : Byte) : (s.setReg8 g v).written = s.written := by cases g <;> rfl
@[simp] theorem ioTrace_setReg8 (g : R8) (v : Byte) : (s.setReg8 g v).ioTrace = s.ioTrace := by cases g <;> rfl
@[simp] theorem freeCount_setReg8 (g : R8) (v : Byte) : (s.setReg8 g v).freeCount = s.freeCount := by cases g <;> rfl
@[simp] theorem cfg_setReg8 (g : R8) (v : Byte) : (s.setReg8 g v).cfg = s.cfg := by cases g <;> rfl
@[simp] theorem mode_setReg8 (g : R8) (v : Byte) : (s.setReg8 g v).mode = s.mode := by cases g <;> rfl
@[simp] theorem sp_setReg8 (g : R8) (v : Byte) : (s.setReg8 g v).sp = s.sp := by cases g <;> rfl
@[simp] theorem curData_setReg8 (g : R8) (v : Byte) : (s.setReg8 g v).curData = s.curData := by cases g <;> rfl
@[simp] theorem curProg_setReg8 (g : R8) (v : Byte) : (s.setReg8 g v).curProg = s.curProg := by cases g <;> rfl
@[simp] theorem reach_setReg8 (g : R8) (v : Byte) : (s.setReg8 g v).reach = s.reach := by cases g <;> rfl
@[simp] theorem translateAt_setReg8 (g : R8) (v : Byte) : (s.setReg8 g v).translateAt = s.translateAt := by cases g <;> rfl
@[simp] theorem isMemory_setReg8 (g : R8) (v : Byte) : (s.setReg8 g v).isMemory = s.isMemory := by cases g <;> rfl
@[simp] theorem wasWritten_setReg8 (g : R8) (v : Byte) : (s.setReg8 g v).wasWritten = s.wasWritten := by cases g <;> rfl
@[simp] theorem anyWord_setReg8 (g : R8) (v : Byte) : (s.setReg8 g v).anyWord = s.anyWord := by cases g <;> rfl
@[simp] theorem xy_setReg8 (g : R8) (v : Byte) : (s.setReg8 g v).xy = s.xy := by cases g <;> rfl

/-! A half of an index register. -/

@[simp] theorem bankAF0_setHalf (q : XY) (h : Half) (v : Byte) : (s.setHalf q h v).bankAF0 = s.bankAF0 := by cases q <;> cases h <;> rfl
@[simp] theorem bankAF1_setHalf (q : XY) (h : Half) (v : Byte) : (s.setHalf q h v).bankAF1 = s.bankAF1 := by cases q <;> cases h <;> rfl
@[simp] theorem bankGP0_setHalf (q : XY) (h : Half) (v : Byte) : (s.setHalf q h v).bankGP0 = s.bankGP0 := by cases q <;> cases h <;> rfl
@[simp] theorem bankGP1_setHalf (q : XY) (h : Half) (v : Byte) : (s.setHalf q h v).bankGP1 = s.bankGP1 := by cases q <;> cases h <;> rfl
@[simp] theorem afSel_setHalf (q : XY) (h : Half) (v : Byte) : (s.setHalf q h v).afSel = s.afSel := by cases q <;> cases h <;> rfl
@[simp] theorem rfSel_setHalf (q : XY) (h : Half) (v : Byte) : (s.setHalf q h v).rfSel = s.rfSel := by cases q <;> cases h <;> rfl
@[simp] theorem ssp_setHalf (q : XY) (h : Half) (v : Byte) : (s.setHalf q h v).ssp = s.ssp := by cases q <;> cases h <;> rfl
@[simp] theorem usp_setHalf (q : XY) (h : Half) (v : Byte) : (s.setHalf q h v).usp = s.usp := by cases q <;> cases h <;> rfl
@[simp] theorem pc_setHalf (q : XY) (h : Half) (v : Byte) : (s.setHalf q h v).pc = s.pc := by cases q <;> cases h <;> rfl
@[simp] theorem i_setHalf (q : XY) (h : Half) (v : Byte) : (s.setHalf q h v).i = s.i := by cases q <;> cases h <;> rfl
@[simp] theorem r_setHalf (q : XY) (h : Half) (v : Byte) : (s.setHalf q h v).r = s.r := by cases q <;> cases h <;> rfl
@[simp] theorem msr_setHalf (q : XY) (h : Half) (v : Byte) : (s.setHalf q h v).msr = s.msr := by cases q <;> cases h <;> rfl
@[simp] theorem isr_setHalf (q : XY) (h : Half) (v : Byte) : (s.setHalf q h v).isr = s.isr := by cases q <;> cases h <;> rfl
@[simp] theorem itvtp_setHalf (q : XY) (h : Half) (v : Byte) : (s.setHalf q h v).itvtp = s.itvtp := by cases q <;> cases h <;> rfl
@[simp] theorem slr_setHalf (q : XY) (h : Half) (v : Byte) : (s.setHalf q h v).slr = s.slr := by cases q <;> cases h <;> rfl
@[simp] theorem iop_setHalf (q : XY) (h : Half) (v : Byte) : (s.setHalf q h v).iop = s.iop := by cases q <;> cases h <;> rfl
@[simp] theorem tcr_setHalf (q : XY) (h : Half) (v : Byte) : (s.setHalf q h v).tcr = s.tcr := by cases q <;> cases h <;> rfl
@[simp] theorem bti_setHalf (q : XY) (h : Half) (v : Byte) : (s.setHalf q h v).bti = s.bti := by cases q <;> cases h <;> rfl
@[simp] theorem btc_setHalf (q : XY) (h : Half) (v : Byte) : (s.setHalf q h v).btc = s.btc := by cases q <;> cases h <;> rfl
@[simp] theorem ccr_setHalf (q : XY) (h : Half) (v : Byte) : (s.setHalf q h v).ccr = s.ccr := by cases q <;> cases h <;> rfl
@[simp] theorem lar_setHalf (q : XY) (h : Half) (v : Byte) : (s.setHalf q h v).lar = s.lar := by cases q <;> cases h <;> rfl
@[simp] theorem eiShadow_setHalf (q : XY) (h : Half) (v : Byte) : (s.setHalf q h v).eiShadow = s.eiShadow := by cases q <;> cases h <;> rfl
@[simp] theorem halted_setHalf (q : XY) (h : Half) (v : Byte) : (s.setHalf q h v).halted = s.halted := by cases q <;> cases h <;> rfl
@[simp] theorem mmuLatch_setHalf (q : XY) (h : Half) (v : Byte) : (s.setHalf q h v).mmuLatch = s.mmuLatch := by cases q <;> cases h <;> rfl
@[simp] theorem mem_setHalf (q : XY) (h : Half) (v : Byte) : (s.setHalf q h v).mem = s.mem := by cases q <;> cases h <;> rfl
@[simp] theorem written_setHalf (q : XY) (h : Half) (v : Byte) : (s.setHalf q h v).written = s.written := by cases q <;> cases h <;> rfl
@[simp] theorem ioTrace_setHalf (q : XY) (h : Half) (v : Byte) : (s.setHalf q h v).ioTrace = s.ioTrace := by cases q <;> cases h <;> rfl
@[simp] theorem freeCount_setHalf (q : XY) (h : Half) (v : Byte) : (s.setHalf q h v).freeCount = s.freeCount := by cases q <;> cases h <;> rfl
@[simp] theorem cfg_setHalf (q : XY) (h : Half) (v : Byte) : (s.setHalf q h v).cfg = s.cfg := by cases q <;> cases h <;> rfl
@[simp] theorem af_setHalf (q : XY) (h : Half) (v : Byte) : (s.setHalf q h v).af = s.af := by cases q <;> cases h <;> rfl
@[simp] theorem afAlt_setHalf (q : XY) (h : Half) (v : Byte) : (s.setHalf q h v).afAlt = s.afAlt := by cases q <;> cases h <;> rfl
@[simp] theorem gp_setHalf (q : XY) (h : Half) (v : Byte) : (s.setHalf q h v).gp = s.gp := by cases q <;> cases h <;> rfl
@[simp] theorem gpAlt_setHalf (q : XY) (h : Half) (v : Byte) : (s.setHalf q h v).gpAlt = s.gpAlt := by cases q <;> cases h <;> rfl
@[simp] theorem a_setHalf (q : XY) (h : Half) (v : Byte) : (s.setHalf q h v).a = s.a := by cases q <;> cases h <;> rfl
@[simp] theorem f_setHalf (q : XY) (h : Half) (v : Byte) : (s.setHalf q h v).f = s.f := by cases q <;> cases h <;> rfl
@[simp] theorem bc_setHalf (q : XY) (h : Half) (v : Byte) : (s.setHalf q h v).bc = s.bc := by cases q <;> cases h <;> rfl
@[simp] theorem de_setHalf (q : XY) (h : Half) (v : Byte) : (s.setHalf q h v).de = s.de := by cases q <;> cases h <;> rfl
@[simp] theorem hl_setHalf (q : XY) (h : Half) (v : Byte) : (s.setHalf q h v).hl = s.hl := by cases q <;> cases h <;> rfl
@[simp] theorem mode_setHalf (q : XY) (h : Half) (v : Byte) : (s.setHalf q h v).mode = s.mode := by cases q <;> cases h <;> rfl
@[simp] theorem sp_setHalf (q : XY) (h : Half) (v : Byte) : (s.setHalf q h v).sp = s.sp := by cases q <;> cases h <;> rfl
@[simp] theorem curData_setHalf (q : XY) (h : Half) (v : Byte) : (s.setHalf q h v).curData = s.curData := by cases q <;> cases h <;> rfl
@[simp] theorem curProg_setHalf (q : XY) (h : Half) (v : Byte) : (s.setHalf q h v).curProg = s.curProg := by cases q <;> cases h <;> rfl
@[simp] theorem reach_setHalf (q : XY) (h : Half) (v : Byte) : (s.setHalf q h v).reach = s.reach := by cases q <;> cases h <;> rfl
@[simp] theorem translateAt_setHalf (q : XY) (h : Half) (v : Byte) : (s.setHalf q h v).translateAt = s.translateAt := by cases q <;> cases h <;> rfl
@[simp] theorem isMemory_setHalf (q : XY) (h : Half) (v : Byte) : (s.setHalf q h v).isMemory = s.isMemory := by cases q <;> cases h <;> rfl
@[simp] theorem wasWritten_setHalf (q : XY) (h : Half) (v : Byte) : (s.setHalf q h v).wasWritten = s.wasWritten := by cases q <;> cases h <;> rfl
@[simp] theorem anyWord_setHalf (q : XY) (h : Half) (v : Byte) : (s.setHalf q h v).anyWord = s.anyWord := by cases q <;> cases h <;> rfl

/-! A 16-bit register operand. -/

@[simp] theorem bankAF0_setReg16 (w : Reg16) (v : Word) : (s.setReg16 w v).bankAF0 = s.bankAF0 := by cases w <;> rfl
@[simp] theorem bankAF1_setReg16 (w : Reg16) (v : Word) : (s.setReg16 w v).bankAF1 = s.bankAF1 := by cases w <;> rfl
@[simp] theorem afSel_setReg16 (w : Reg16) (v : Word) : (s.setReg16 w v).afSel = s.afSel := by cases w <;> rfl
@[simp] theorem rfSel_setReg16 (w : Reg16) (v : Word) : (s.setReg16 w v).rfSel = s.rfSel := by cases w <;> rfl
@[simp] theorem pc_setReg16 (w : Reg16) (v : Word) : (s.setReg16 w v).pc = s.pc := by cases w <;> rfl
@[simp] theorem i_setReg16 (w : Reg16) (v : Word) : (s.setReg16 w v).i = s.i := by cases w <;> rfl
@[simp] theorem r_setReg16 (w : Reg16) (v : Word) : (s.setReg16 w v).r = s.r := by cases w <;> rfl
@[simp] theorem msr_setReg16 (w : Reg16) (v : Word) : (s.setReg16 w v).msr = s.msr := by cases w <;> rfl
@[simp] theorem isr_setReg16 (w : Reg16) (v : Word) : (s.setReg16 w v).isr = s.isr := by cases w <;> rfl
@[simp] theorem itvtp_setReg16 (w : Reg16) (v : Word) : (s.setReg16 w v).itvtp = s.itvtp := by cases w <;> rfl
@[simp] theorem slr_setReg16 (w : Reg16) (v : Word) : (s.setReg16 w v).slr = s.slr := by cases w <;> rfl
@[simp] theorem iop_setReg16 (w : Reg16) (v : Word) : (s.setReg16 w v).iop = s.iop := by cases w <;> rfl
@[simp] theorem tcr_setReg16 (w : Reg16) (v : Word) : (s.setReg16 w v).tcr = s.tcr := by cases w <;> rfl
@[simp] theorem bti_setReg16 (w : Reg16) (v : Word) : (s.setReg16 w v).bti = s.bti := by cases w <;> rfl
@[simp] theorem btc_setReg16 (w : Reg16) (v : Word) : (s.setReg16 w v).btc = s.btc := by cases w <;> rfl
@[simp] theorem ccr_setReg16 (w : Reg16) (v : Word) : (s.setReg16 w v).ccr = s.ccr := by cases w <;> rfl
@[simp] theorem lar_setReg16 (w : Reg16) (v : Word) : (s.setReg16 w v).lar = s.lar := by cases w <;> rfl
@[simp] theorem eiShadow_setReg16 (w : Reg16) (v : Word) : (s.setReg16 w v).eiShadow = s.eiShadow := by cases w <;> rfl
@[simp] theorem halted_setReg16 (w : Reg16) (v : Word) : (s.setReg16 w v).halted = s.halted := by cases w <;> rfl
@[simp] theorem mmuLatch_setReg16 (w : Reg16) (v : Word) : (s.setReg16 w v).mmuLatch = s.mmuLatch := by cases w <;> rfl
@[simp] theorem mem_setReg16 (w : Reg16) (v : Word) : (s.setReg16 w v).mem = s.mem := by cases w <;> rfl
@[simp] theorem written_setReg16 (w : Reg16) (v : Word) : (s.setReg16 w v).written = s.written := by cases w <;> rfl
@[simp] theorem ioTrace_setReg16 (w : Reg16) (v : Word) : (s.setReg16 w v).ioTrace = s.ioTrace := by cases w <;> rfl
@[simp] theorem freeCount_setReg16 (w : Reg16) (v : Word) : (s.setReg16 w v).freeCount = s.freeCount := by cases w <;> rfl
@[simp] theorem cfg_setReg16 (w : Reg16) (v : Word) : (s.setReg16 w v).cfg = s.cfg := by cases w <;> rfl
@[simp] theorem af_setReg16 (w : Reg16) (v : Word) : (s.setReg16 w v).af = s.af := by cases w <;> rfl
@[simp] theorem afAlt_setReg16 (w : Reg16) (v : Word) : (s.setReg16 w v).afAlt = s.afAlt := by cases w <;> rfl
@[simp] theorem a_setReg16 (w : Reg16) (v : Word) : (s.setReg16 w v).a = s.a := by cases w <;> rfl
@[simp] theorem f_setReg16 (w : Reg16) (v : Word) : (s.setReg16 w v).f = s.f := by cases w <;> rfl
@[simp] theorem mode_setReg16 (w : Reg16) (v : Word) : (s.setReg16 w v).mode = s.mode := by cases w <;> rfl
@[simp] theorem curData_setReg16 (w : Reg16) (v : Word) : (s.setReg16 w v).curData = s.curData := by cases w <;> rfl
@[simp] theorem curProg_setReg16 (w : Reg16) (v : Word) : (s.setReg16 w v).curProg = s.curProg := by cases w <;> rfl
@[simp] theorem reach_setReg16 (w : Reg16) (v : Word) : (s.setReg16 w v).reach = s.reach := by cases w <;> rfl
@[simp] theorem translateAt_setReg16 (w : Reg16) (v : Word) : (s.setReg16 w v).translateAt = s.translateAt := by cases w <;> rfl
@[simp] theorem isMemory_setReg16 (w : Reg16) (v : Word) : (s.setReg16 w v).isMemory = s.isMemory := by cases w <;> rfl
@[simp] theorem wasWritten_setReg16 (w : Reg16) (v : Word) : (s.setReg16 w v).wasWritten = s.wasWritten := by cases w <;> rfl
@[simp] theorem anyWord_setReg16 (w : Reg16) (v : Word) : (s.setReg16 w v).anyWord = s.anyWord := by cases w <;> rfl

/-! Flags written. -/

@[simp] theorem bankGP0_putFlags (g : Flags → Flags) : (s.putFlags g).bankGP0 = s.bankGP0 := rfl
@[simp] theorem bankGP1_putFlags (g : Flags → Flags) : (s.putFlags g).bankGP1 = s.bankGP1 := rfl
@[simp] theorem afSel_putFlags (g : Flags → Flags) : (s.putFlags g).afSel = s.afSel := rfl
@[simp] theorem rfSel_putFlags (g : Flags → Flags) : (s.putFlags g).rfSel = s.rfSel := rfl
@[simp] theorem ix_putFlags (g : Flags → Flags) : (s.putFlags g).ix = s.ix := rfl
@[simp] theorem iy_putFlags (g : Flags → Flags) : (s.putFlags g).iy = s.iy := rfl
@[simp] theorem ssp_putFlags (g : Flags → Flags) : (s.putFlags g).ssp = s.ssp := rfl
@[simp] theorem usp_putFlags (g : Flags → Flags) : (s.putFlags g).usp = s.usp := rfl
@[simp] theorem pc_putFlags (g : Flags → Flags) : (s.putFlags g).pc = s.pc := rfl
@[simp] theorem i_putFlags (g : Flags → Flags) : (s.putFlags g).i = s.i := rfl
@[simp] theorem r_putFlags (g : Flags → Flags) : (s.putFlags g).r = s.r := rfl
@[simp] theorem msr_putFlags (g : Flags → Flags) : (s.putFlags g).msr = s.msr := rfl
@[simp] theorem isr_putFlags (g : Flags → Flags) : (s.putFlags g).isr = s.isr := rfl
@[simp] theorem itvtp_putFlags (g : Flags → Flags) : (s.putFlags g).itvtp = s.itvtp := rfl
@[simp] theorem slr_putFlags (g : Flags → Flags) : (s.putFlags g).slr = s.slr := rfl
@[simp] theorem iop_putFlags (g : Flags → Flags) : (s.putFlags g).iop = s.iop := rfl
@[simp] theorem tcr_putFlags (g : Flags → Flags) : (s.putFlags g).tcr = s.tcr := rfl
@[simp] theorem bti_putFlags (g : Flags → Flags) : (s.putFlags g).bti = s.bti := rfl
@[simp] theorem btc_putFlags (g : Flags → Flags) : (s.putFlags g).btc = s.btc := rfl
@[simp] theorem ccr_putFlags (g : Flags → Flags) : (s.putFlags g).ccr = s.ccr := rfl
@[simp] theorem lar_putFlags (g : Flags → Flags) : (s.putFlags g).lar = s.lar := rfl
@[simp] theorem eiShadow_putFlags (g : Flags → Flags) : (s.putFlags g).eiShadow = s.eiShadow := rfl
@[simp] theorem halted_putFlags (g : Flags → Flags) : (s.putFlags g).halted = s.halted := rfl
@[simp] theorem mmuLatch_putFlags (g : Flags → Flags) : (s.putFlags g).mmuLatch = s.mmuLatch := rfl
@[simp] theorem mem_putFlags (g : Flags → Flags) : (s.putFlags g).mem = s.mem := rfl
@[simp] theorem written_putFlags (g : Flags → Flags) : (s.putFlags g).written = s.written := rfl
@[simp] theorem ioTrace_putFlags (g : Flags → Flags) : (s.putFlags g).ioTrace = s.ioTrace := rfl
@[simp] theorem cfg_putFlags (g : Flags → Flags) : (s.putFlags g).cfg = s.cfg := rfl
@[simp] theorem gp_putFlags (g : Flags → Flags) : (s.putFlags g).gp = s.gp := rfl
@[simp] theorem gpAlt_putFlags (g : Flags → Flags) : (s.putFlags g).gpAlt = s.gpAlt := rfl
@[simp] theorem bc_putFlags (g : Flags → Flags) : (s.putFlags g).bc = s.bc := rfl
@[simp] theorem de_putFlags (g : Flags → Flags) : (s.putFlags g).de = s.de := rfl
@[simp] theorem hl_putFlags (g : Flags → Flags) : (s.putFlags g).hl = s.hl := rfl
@[simp] theorem mode_putFlags (g : Flags → Flags) : (s.putFlags g).mode = s.mode := rfl
@[simp] theorem sp_putFlags (g : Flags → Flags) : (s.putFlags g).sp = s.sp := rfl
@[simp] theorem curData_putFlags (g : Flags → Flags) : (s.putFlags g).curData = s.curData := rfl
@[simp] theorem curProg_putFlags (g : Flags → Flags) : (s.putFlags g).curProg = s.curProg := rfl
@[simp] theorem reach_putFlags (g : Flags → Flags) : (s.putFlags g).reach = s.reach := rfl
@[simp] theorem translateAt_putFlags (g : Flags → Flags) : (s.putFlags g).translateAt = s.translateAt := rfl
@[simp] theorem isMemory_putFlags (g : Flags → Flags) : (s.putFlags g).isMemory = s.isMemory := rfl
@[simp] theorem wasWritten_putFlags (g : Flags → Flags) : (s.putFlags g).wasWritten = s.wasWritten := rfl
@[simp] theorem xy_putFlags (g : Flags → Flags) : (s.putFlags g).xy = s.xy := rfl

end Sys2Proof.Machine
end

