-- ==== Sys2Proof/Laws/Frame.lean ====
section
/-! SUPPORT. What each named operation does to the registers, and the frame of each: the lemmas that statements about what
an instruction leaves unchanged are put together from. -/

namespace Sys2Proof.Machine

/-! ### Byte registers -/

@[simp] theorem reg8_setReg8_same (s : State) (g : R8) (v : Byte) : (s.setReg8 g v).reg8 g = v := by
  cases g <;> simp [State.setReg8, State.reg8]

theorem reg8_setReg8_ne (s : State) {g g' : R8} (h : g' ≠ g) (v : Byte) : (s.setReg8 g v).reg8 g' = s.reg8 g' := by
  cases g <;> cases g' <;> first | exact absurd rfl h | simp [State.setReg8, State.reg8]

@[simp] theorem half_setHalf_same (s : State) (q : XY) (h : Half) (v : Byte) : (s.setHalf q h v).half q h = v := by
  cases h <;> simp [State.setHalf, State.half]

theorem half_setHalf_ne (s : State) {q q' : XY} {h h' : Half} (hn : (q', h') ≠ (q, h)) (v : Byte) :
    (s.setHalf q h v).half q' h' = s.half q' h' := by
  cases q <;> cases q' <;> cases h <;> cases h' <;>
    first | exact absurd rfl hn | simp [State.setHalf, State.half]

@[simp] theorem reg16_setReg16_same (s : State) (w : Reg16) (v : Word) : (s.setReg16 w v).reg16 w = v := by
  cases w <;> simp [State.setReg16, State.reg16]

theorem reg16_setReg16_ne (s : State) {w w' : Reg16} (h : w' ≠ w) (v : Word) :
    (s.setReg16 w v).reg16 w' = s.reg16 w' := by
  cases w <;> cases w' <;> first | exact absurd rfl h | simp [State.setReg16, State.reg16]

/-! ### Registers by number after the updates that leave them alone -/

@[simp] theorem reg8_setXY (s : State) (q : XY) (v : Word) (g : R8) : (s.setXY q v).reg8 g = s.reg8 g := by
  cases g <;> simp [State.reg8]

@[simp] theorem reg8_setSP (s : State) (v : Word) (g : R8) : (s.setSP v).reg8 g = s.reg8 g := by
  cases g <;> simp [State.reg8]

@[simp] theorem reg8_drawn (s : State) (g : R8) : s.drawn.reg8 g = s.reg8 g := by
  cases g <;> simp [State.reg8]

@[simp] theorem reg8_jump (s : State) (t : Word) (g : R8) : (s.jump t).reg8 g = s.reg8 g := by
  cases g <;> simp [State.reg8]

@[simp] theorem reg8_putByte (s : State) (p : PhysAddr) (b : Byte) (g : R8) : (s.putByte p b).reg8 g = s.reg8 g := by
  cases g <;> simp [State.reg8]

@[simp] theorem reg8_ioDone (s : State) (a : IoAddr) (w : IoWidth) (g : R8) : (s.ioDone a w).reg8 g = s.reg8 g := by
  cases g <;> simp [State.reg8]

@[simp] theorem reg8_putFlags (s : State) (f : Flags → Flags) (g : R8) : (s.putFlags f).reg8 g = s.reg8 g := by
  cases g <;> simp [State.reg8]

@[simp] theorem reg8_setHalf (s : State) (q : XY) (k : Half) (v : Byte) (g : R8) :
    (s.setHalf q k v).reg8 g = s.reg8 g := by
  cases g <;> simp [State.reg8]

theorem reg8_setAF (s : State) (x : AF) {g : R8} (h : g ≠ .a) : (s.setAF x).reg8 g = s.reg8 g := by
  cases g <;> first | exact absurd rfl h | simp [State.reg8]

@[simp] theorem half_setAF (s : State) (x : AF) (q : XY) (h : Half) : (s.setAF x).half q h = s.half q h := by
  cases q <;> cases h <;> simp [State.half]

@[simp] theorem half_setGP (s : State) (x : GP) (q : XY) (h : Half) : (s.setGP x).half q h = s.half q h := by
  cases q <;> cases h <;> simp [State.half]

@[simp] theorem half_setSP (s : State) (v : Word) (q : XY) (h : Half) : (s.setSP v).half q h = s.half q h := by
  cases q <;> cases h <;> simp [State.half]

@[simp] theorem half_drawn (s : State) (q : XY) (h : Half) : s.drawn.half q h = s.half q h := by
  cases q <;> cases h <;> simp [State.half]

@[simp] theorem half_jump (s : State) (t : Word) (q : XY) (h : Half) : (s.jump t).half q h = s.half q h := by
  cases q <;> cases h <;> simp [State.half]

@[simp] theorem half_putByte (s : State) (p : PhysAddr) (b : Byte) (q : XY) (h : Half) :
    (s.putByte p b).half q h = s.half q h := by
  cases q <;> cases h <;> simp [State.half]

@[simp] theorem half_ioDone (s : State) (a : IoAddr) (w : IoWidth) (q : XY) (h : Half) :
    (s.ioDone a w).half q h = s.half q h := by
  cases q <;> cases h <;> simp [State.half]

@[simp] theorem half_putFlags (s : State) (f : Flags → Flags) (q : XY) (h : Half) :
    (s.putFlags f).half q h = s.half q h := by
  cases q <;> cases h <;> simp [State.half]

@[simp] theorem half_setReg8 (s : State) (r : R8) (v : Byte) (q : XY) (h : Half) :
    (s.setReg8 r v).half q h = s.half q h := by
  cases q <;> cases h <;> simp [State.half]

@[simp] theorem reg16_setAF (s : State) (x : AF) (w : Reg16) : (s.setAF x).reg16 w = s.reg16 w := by
  cases w <;> simp [State.reg16]

@[simp] theorem reg16_drawn (s : State) (w : Reg16) : s.drawn.reg16 w = s.reg16 w := by
  cases w <;> simp [State.reg16]

@[simp] theorem reg16_jump (s : State) (t : Word) (w : Reg16) : (s.jump t).reg16 w = s.reg16 w := by
  cases w <;> simp [State.reg16]

@[simp] theorem reg16_putByte (s : State) (p : PhysAddr) (b : Byte) (w : Reg16) :
    (s.putByte p b).reg16 w = s.reg16 w := by
  cases w <;> simp [State.reg16]

@[simp] theorem reg16_ioDone (s : State) (a : IoAddr) (w : IoWidth) (g : Reg16) :
    (s.ioDone a w).reg16 g = s.reg16 g := by
  cases g <;> simp [State.reg16]

@[simp] theorem reg16_putFlags (s : State) (f : Flags → Flags) (w : Reg16) : (s.putFlags f).reg16 w = s.reg16 w := by
  cases w <;> simp [State.reg16]

/-! ### `look` after each update -/

theorem look_setA (s : State) (v : Byte) {g : Reg} (h : g ≠ .r8 .a) : (s.setA v).look g = s.look g := by
  cases g <;> simp [State.look]
  case r8 r => cases r <;> first | exact absurd rfl h | simp [State.reg8]
  case alt r => cases r <;> simp [State.altReg8]

theorem look_putFlags (s : State) (f : Flags → Flags) (g : Reg) : (s.putFlags f).look g = s.look g := by
  cases g <;> simp [State.look]
  case alt r => cases r <;> simp [State.altReg8]

theorem look_setReg8 (s : State) (r : R8) (v : Byte) {g : Reg} (h : g ≠ .r8 r) :
    (s.setReg8 r v).look g = s.look g := by
  cases g <;> simp [State.look]
  case r8 r' => rw [reg8_setReg8_ne]; rintro rfl; exact h rfl
  case alt r => cases r <;> simp [State.altReg8]

theorem look_setHalf (s : State) (q : XY) (h : Half) (v : Byte) {g : Reg} (hg : g ≠ .half q h) :
    (s.setHalf q h v).look g = s.look g := by
  cases g <;> simp [State.look]
  case alt r => cases r <;> simp [State.altReg8]
  case half q' h' =>
    rw [half_setHalf_ne]
    intro e; cases e; exact hg rfl

theorem look_setReg16 (s : State) (w : Reg16) (v : Word) {g : Reg} (h : g ∉ w.regs s) :
    (s.setReg16 w v).look g = s.look g := by
  cases g <;> simp only [State.look, State.altReg8]
  case r8 r =>
    cases w <;> cases r <;> first | (simp [State.setReg16, State.reg8]; done) | simp [Reg16.regs] at h
  case alt r => cases r <;> simp
  case half q h' =>
    cases w <;> cases q <;> cases h' <;>
      first | (simp [State.setReg16, State.half]; done) | simp [Reg16.regs] at h
  case ssp =>
    cases w <;> simp [State.setReg16]
    cases hm : s.mode <;> simp [Reg16.regs, hm] at h ⊢
  case usp =>
    cases w <;> simp [State.setReg16]
    cases hm : s.mode <;> simp [Reg16.regs, hm] at h ⊢
  all_goals simp

theorem look_drawn (s : State) (g : Reg) : s.drawn.look g = s.look g := rfl

theorem look_jump (s : State) (t : Word) (g : Reg) : (s.jump t).look g = s.look g := by
  cases g <;> rfl

theorem look_advance (s : State) (n : Nat) (g : Reg) : (s.advance n).look g = s.look g := look_jump s _ g

theorem look_putByte (s : State) (p : PhysAddr) (b : Byte) (g : Reg) : (s.putByte p b).look g = s.look g := by
  cases g <;> rfl

theorem look_ioDone (s : State) (a : IoAddr) (w : IoWidth) (g : Reg) : (s.ioDone a w).look g = s.look g := by
  cases g <;> rfl

/-! ### `Unchanged` -/

theorem Unchanged.refl (l : List Reg) (s : State) : Unchanged l s s := ⟨fun _ _ => rfl, rfl, rfl, rfl, rfl⟩

theorem Unchanged.trans {l l' : List Reg} {s t u : State} (h : Unchanged l s t) (h' : Unchanged l' t u) :
    Unchanged (l ++ l') s u := by
  obtain ⟨a, b, c, d, e⟩ := h
  obtain ⟨a', b', c', d', e'⟩ := h'
  refine ⟨fun g hg => ?_, b'.trans b, c'.trans c, d'.trans d, e'.trans e⟩
  rw [List.mem_append, not_or] at hg
  rw [a' g hg.2, a g hg.1]

theorem Unchanged.mono {l l' : List Reg} {s t : State} (h : Unchanged l s t) (hl : ∀ g ∈ l, g ∈ l') :
    Unchanged l' s t :=
  ⟨fun g hg => h.1 g fun hm => hg (hl g hm), h.2⟩

theorem unchanged_setA (s : State) (v : Byte) : Unchanged [.r8 .a] s (s.setA v) :=
  ⟨fun _ hg => look_setA s v (by simpa using hg), by simp, rfl, rfl, rfl⟩

theorem unchanged_setReg8 (s : State) (r : R8) (v : Byte) : Unchanged [.r8 r] s (s.setReg8 r v) :=
  ⟨fun _ hg => look_setReg8 s r v (by simpa using hg), by simp, by simp, by simp, by simp⟩

theorem unchanged_setHalf (s : State) (q : XY) (h : Half) (v : Byte) : Unchanged [.half q h] s (s.setHalf q h v) :=
  ⟨fun _ hg => look_setHalf s q h v (by simpa using hg), by simp, by simp, by simp, by simp⟩

theorem unchanged_setReg16 (s : State) (w : Reg16) (v : Word) : Unchanged (w.regs s) s (s.setReg16 w v) :=
  ⟨fun _ hg => look_setReg16 s w v hg, by simp, by simp, by simp, by simp⟩

theorem unchanged_putFlags (s : State) (f : Flags → Flags) : Unchanged [] s (s.putFlags f) :=
  ⟨fun g _ => look_putFlags s f g, by simp, by simp, by simp, by simp⟩

theorem unchanged_drawn (s : State) : Unchanged [] s s.drawn := ⟨fun _ _ => rfl, rfl, rfl, rfl, rfl⟩

theorem unchanged_jump (s : State) (t : Word) : Unchanged [] s (s.jump t) :=
  ⟨fun g _ => look_jump s t g, rfl, rfl, rfl, rfl⟩

theorem unchanged_advance (s : State) (n : Nat) : Unchanged [] s (s.advance n) := unchanged_jump s _

theorem unchanged_putByte (s : State) (p : PhysAddr) (b : Byte) : Unchanged [] s (s.putByte p b) :=
  ⟨fun g _ => look_putByte s p b g, rfl, rfl, rfl, rfl⟩

theorem unchanged_ioDone (s : State) (a : IoAddr) (w : IoWidth) : Unchanged [] s (s.ioDone a w) :=
  ⟨fun g _ => look_ioDone s a w g, rfl, rfl, rfl, rfl⟩

/-! ### Memory -/

theorem SameMemory.of_eq {s t : State} (hm : t.mem = s.mem) (hw : t.written = s.written) : SameMemory s t :=
  ⟨fun _ => by rw [hm], fun _ => by rw [State.wasWritten, State.wasWritten, hw]⟩

theorem wasWritten_putByte (s : State) (p q : PhysAddr) (b : Byte) :
    (s.putByte p b).wasWritten q = (decide (q = p) || s.wasWritten q) := by
  rw [Bool.eq_iff_iff]
  simp only [State.wasWritten, written_putByte, List.contains_iff_mem, mem_insertAddr, Bool.or_eq_true,
    decide_eq_true_eq]
  constructor
  · rintro (h | h)
    · exact .inl (BitVec.eq_of_toNat_eq h)
    · exact .inr h
  · rintro (h | h)
    · exact .inl (by rw [h])
    · exact .inr h

theorem storedByte_putByte {s : State} (h : s.mem.wf = true) (p : PhysAddr) (b : Byte) :
    StoredByte p b s (s.putByte p b) :=
  ⟨Memory.get_set_same h p b, fun _ hq => Memory.get_set_other h hq b, fun q => wasWritten_putByte s p q b⟩

theorem storedWord_putByte {s : State} (h : s.mem.wf = true) (p p' : PhysAddr) (lo hi : Byte) :
    StoredWord p p' lo hi s ((s.putByte p lo).putByte p' hi) := by
  have h' : (s.putByte p lo).mem.wf = true := Memory.set_wf h p lo
  refine ⟨Memory.get_set_same h' p' hi, fun hp => ?_, fun q hq hq' => ?_, fun q => ?_⟩
  · rw [mem_putByte, Memory.get_set_other h' hp, mem_putByte, Memory.get_set_same h]
  · rw [mem_putByte, Memory.get_set_other h' hq', mem_putByte, Memory.get_set_other h hq]
  · rw [wasWritten_putByte, wasWritten_putByte, ← Bool.or_assoc, Bool.or_comm (decide (q = p'))]

/-- What `StoredByte` says does not change when a later update leaves memory alone. -/
theorem StoredByte.congr {p : PhysAddr} {b : Byte} {s t u : State} (h : StoredByte p b s t) (hm : u.mem = t.mem)
    (hw : u.written = t.written) : StoredByte p b s u := by
  simpa only [StoredByte, State.wasWritten, hm, hw] using h

/-- What `StoredWord` says does not change when a later update leaves memory alone. -/
theorem StoredWord.congr {p p' : PhysAddr} {lo hi : Byte} {s t u : State} (h : StoredWord p p' lo hi s t)
    (hm : u.mem = t.mem) (hw : u.written = t.written) : StoredWord p p' lo hi s u := by
  simpa only [StoredWord, State.wasWritten, hm, hw] using h

/-- The instruction has completed where its last update is `advance`. -/
theorem completed_advance {s t : State} (len : Nat) (h : t.pc = s.pc) : Completed len s (t.advance len) := by
  simp [Completed, State.pcNext, h]

end Sys2Proof.Machine
end

