-- ==== Sys2Proof/Laws/Access.lean ====
section
/-! SUPPORT. What each access, each check and the step itself can answer, said once. -/

namespace Sys2Proof.Machine

/-! ### Checks and sequencing -/

theorem raise_ne_next (k : Trap) (s t : State) : raise k s ≠ .next t := by cases k <;> simp [raise]

theorem stop_ne_next (e : AccessStop) (s t : State) : stop e s ≠ .next t := by
  cases e <;> simp [stop, raise]

@[simp] theorem settle_ok {α : Type} (v : α) (s : State) (k : α → Out) : settle (.ok v) s k = k v := rfl

@[simp] theorem settle_error {α : Type} (e : AccessStop) (s : State) (k : α → Out) :
    settle (.error e) s k = stop e s := rfl

theorem settle_eq_next {α : Type} {x : Acc α} {s t : State} {k : α → Out} :
    settle x s k = .next t ↔ ∃ v, x = .ok v ∧ k v = .next t := by
  cases x with
  | error e => simp [stop_ne_next]
  | ok v => simp

theorem privCheck_system {s : State} (h : s.mode = .system) (k : Out) : privCheck s k = k := by
  simp [privCheck, h]

theorem privCheck_user {s : State} (h : s.mode = .user) (k : Out) : privCheck s k = raise .privileged s := by
  simp [privCheck, h]

theorem privCheck_eq_next {s t : State} {k : Out} :
    privCheck s k = .next t ↔ s.mode = .system ∧ k = .next t := by
  cases h : s.mode <;> simp [privCheck, h, raise_ne_next]

theorem ioPrivCheck_eq_next {s t : State} {k : Out} : ioPrivCheck s k = .next t ↔
    ¬(s.mode = .user ∧ s.tcr.getLsbD s.cfg.tcrI = true) ∧ k = .next t := by
  by_cases h : s.mode = .user ∧ s.tcr.getLsbD s.cfg.tcrI = true
  · simp [ioPrivCheck, h, raise_ne_next]
  · rw [ioPrivCheck, if_neg h]
    exact ⟨fun hk => ⟨h, hk⟩, fun hk => hk.2⟩

/-! ### What ends in a fault or a refusal -/

@[simp] theorem raise_ne_refused (k : Trap) (s : State) (r : Refusal) : raise k s ≠ .refused r := by cases k <;> simp [raise]

theorem stop_eq_refused {e : AccessStop} {s : State} {r : Refusal} :
    stop e s = .refused r ↔ e = .noMemory ∧ r = .noMemoryThere := by
  cases e with
  | violation v => simp [stop]
  | noMemory => simp [stop, eq_comm]

theorem stop_eq_fault {e : AccessStop} {s : State} {f : Fault} :
    stop e s = .fault f ↔ ∃ v, e = .violation v ∧
      f = .accessViolation v { s with mmuLatch := Config.latchedPart v.addr } := by
  cases e <;> simp [stop, raise, eq_comm]

theorem settle_eq_refused {α : Type} {x : Acc α} {s : State} {k : α → Out} {r : Refusal} :
    settle x s k = .refused r ↔
      (x = .error .noMemory ∧ r = .noMemoryThere) ∨ ∃ v, x = .ok v ∧ k v = .refused r := by
  cases x with
  | error e => simp [stop_eq_refused]
  | ok v => simp

theorem settle_eq_fault {α : Type} {x : Acc α} {s : State} {k : α → Out} {f : Fault} :
    settle x s k = .fault f ↔
      (∃ v, x = .error (.violation v) ∧ f = .accessViolation v { s with mmuLatch := Config.latchedPart v.addr }) ∨
        ∃ v, x = .ok v ∧ k v = .fault f := by
  cases x with
  | error e => simp [stop_eq_fault]
  | ok v => simp

theorem privCheck_eq_refused {s : State} {k : Out} {r : Refusal} :
    privCheck s k = .refused r ↔ s.mode = .system ∧ k = .refused r := by
  cases h : s.mode <;> simp [privCheck, h]

theorem ioPrivCheck_eq_refused {s : State} {k : Out} {r : Refusal} : ioPrivCheck s k = .refused r ↔
    ¬(s.mode = .user ∧ s.tcr.getLsbD s.cfg.tcrI = true) ∧ k = .refused r := by
  by_cases h : s.mode = .user ∧ s.tcr.getLsbD s.cfg.tcrI = true
  · simp [ioPrivCheck, h]
  · rw [ioPrivCheck, if_neg h]
    exact ⟨fun hk => ⟨h, hk⟩, fun hk => hk.2⟩

/-! ### Byte and word accesses -/

theorem reach_eq_noMemory {s : State} {sp : Space} {acc : Access} {a : Word} :
    s.reach sp acc a = .error .noMemory ↔ ∃ p, s.translateAt sp acc a = .phys p ∧ s.isMemory p = false := by
  cases h : s.translateAt sp acc a with
  | violation wp valid => simp [State.reach, h]
  | phys p => cases hp : s.isMemory p <;> simp [State.reach, h, hp]

theorem readByte_eq_error {s : State} {sp : Space} {a : Word} {e : AccessStop} :
    s.readByte sp a = .error e ↔ s.reach sp .read a = .error e := by
  cases h : s.reach sp .read a <;> simp [State.readByte, h, bind, Except.bind, pure, Except.pure]

theorem writeByte_eq_error {s : State} {sp : Space} {a : Word} {b : Byte} {e : AccessStop} :
    s.writeByte sp a b = .error e ↔ s.reach sp .write a = .error e := by
  cases h : s.reach sp .write a <;> simp [State.writeByte, h, bind, Except.bind, pure, Except.pure]

/-- A word read stops where one of its two byte reads does. -/
theorem readWord_eq_error {s : State} {sp : Space} {a : Word} {e : AccessStop} (h : s.readWord sp a = .error e) :
    s.reach sp .read a = .error e ∨ s.reach sp .read (a + 1) = .error e := by
  unfold State.readWord at h
  generalize a + 1 = a' at h ⊢
  cases h1 : s.readByte sp a with
  | error e1 => exact .inl (readByte_eq_error.mp (h1.trans (by simpa [h1, bind, Except.bind] using h)))
  | ok lo =>
    cases h2 : s.readByte sp a' with
    | error e2 => exact .inr (readByte_eq_error.mp (h2.trans (by simpa [h1, h2, bind, Except.bind] using h)))
    | ok hi => simp [h1, h2, bind, Except.bind, pure, Except.pure] at h

theorem checkWrite_eq_error {s : State} {sp : Space} {a : Word} {e : AccessStop} (h : s.checkWrite sp a = .error e) :
    s.reach sp .write a = .error e := by
  unfold State.checkWrite at h
  unfold State.reach
  split at h <;> simp_all

theorem writeByte_of_reach {s : State} {sp : Space} {a : Word} {b : Byte} {p : PhysAddr}
    (h : s.reach sp .write a = .ok p) : s.writeByte sp a b = .ok (s.putByte p b) := by
  simp [State.writeByte, h, bind, Except.bind, pure, Except.pure]

/-- A word write stops where one of its two byte writes does. -/
theorem writeWord_eq_error {s : State} {sp : Space} {a v : Word} {e : AccessStop} (h : s.writeWord sp a v = .error e) :
    s.reach sp .write a = .error e ∨ s.reach sp .write (a + 1) = .error e := by
  unfold State.writeWord at h
  generalize a + 1 = a' at h ⊢
  cases h1 : s.checkWrite sp a with
  | error e1 => exact .inl (checkWrite_eq_error (h1.trans (by simpa [h1, bind, Except.bind] using h)))
  | ok _ =>
    cases h2 : s.checkWrite sp a' with
    | error e2 => exact .inr (checkWrite_eq_error (h2.trans (by simpa [h1, h2, bind, Except.bind] using h)))
    | ok _ =>
      simp only [h1, h2, bind, Except.bind] at h
      cases h3 : s.reach sp .write a with
      | error e3 =>
        simp only [writeByte_eq_error.mpr h3, Except.error.injEq] at h
        exact .inl (by rw [h])
      | ok p =>
        rw [writeByte_of_reach h3] at h
        exact .inr (writeByte_eq_error (s := s.putByte p (loByte v)).mp h)

theorem readByte_eq_ok {s : State} {sp : Space} {a : Word} {v : Byte} :
    s.readByte sp a = .ok v ↔ ∃ p, s.reach sp .read a = .ok p ∧ v = s.mem.get p := by
  cases h : s.reach sp .read a with
  | error e => simp [State.readByte, h, bind, Except.bind]
  | ok p => simp [State.readByte, h, bind, Except.bind, pure, Except.pure, eq_comm]

theorem writeByte_eq_ok {s t : State} {sp : Space} {a : Word} {b : Byte} :
    s.writeByte sp a b = .ok t ↔ ∃ p, s.reach sp .write a = .ok p ∧ t = s.putByte p b := by
  cases h : s.reach sp .write a with
  | error e => simp [State.writeByte, h, bind, Except.bind]
  | ok p => simp [State.writeByte, h, bind, Except.bind, pure, Except.pure, eq_comm]

theorem readWord_eq_ok {s : State} {sp : Space} {a v : Word} :
    s.readWord sp a = .ok v ↔ ∃ lo hi, s.readByte sp a = .ok lo ∧ s.readByte sp (a + 1) = .ok hi ∧
      v = joinBytes hi lo := by
  unfold State.readWord
  generalize a + 1 = a'
  cases h : s.readByte sp a with
  | error e => simp [bind, Except.bind]
  | ok lo =>
    cases h' : s.readByte sp a' with
    | error e => simp [bind, Except.bind]
    | ok hi => simp [bind, Except.bind, pure, Except.pure, eq_comm]

theorem checkWrite_of_reach {s : State} {sp : Space} {a : Word} {p : PhysAddr}
    (h : s.reach sp .write a = .ok p) : s.checkWrite sp a = .ok () := by
  unfold State.reach at h
  unfold State.checkWrite
  split at h <;> simp_all

theorem writeWord_of_reach {s : State} {sp : Space} {a v : Word} {p p' : PhysAddr}
    (h : s.reach sp .write a = .ok p) (h' : s.reach sp .write (a + 1) = .ok p') :
    s.writeWord sp a v = .ok ((s.putByte p (loByte v)).putByte p' (hiByte v)) := by
  have h1 : (s.putByte p (loByte v)).reach sp .write (a + 1) = .ok p' := h'
  simp only [State.writeWord, State.writeByte, checkWrite_of_reach h, checkWrite_of_reach h', h, h1, bind, Except.bind,
    pure, Except.pure]

theorem writeWord_eq_ok {s t : State} {sp : Space} {a v : Word} :
    s.writeWord sp a v = .ok t ↔ ∃ p p', s.reach sp .write a = .ok p ∧ s.reach sp .write (a + 1) = .ok p' ∧
      t = (s.putByte p (loByte v)).putByte p' (hiByte v) := by
  constructor
  · intro h
    unfold State.writeWord at h
    generalize a + 1 = a' at h ⊢
    cases h1 : s.checkWrite sp a with
    | error e => simp [h1, bind, Except.bind] at h
    | ok _ =>
      cases h2 : s.checkWrite sp a' with
      | error e => simp [h1, h2, bind, Except.bind] at h
      | ok _ =>
        cases h3 : s.writeByte sp a (loByte v) with
        | error e => simp [h1, h2, h3, bind, Except.bind] at h
        | ok u =>
          simp only [h1, h2, h3, bind, Except.bind] at h
          obtain ⟨p, hp, rfl⟩ := writeByte_eq_ok.mp h3
          obtain ⟨p', hp', rfl⟩ := writeByte_eq_ok.mp h
          exact ⟨p, p', hp, by simpa using hp', rfl⟩
  · rintro ⟨p, p', h, h', rfl⟩
    exact writeWord_of_reach h h'

theorem push16_eq_ok {s t : State} {v : Word} :
    s.push16 v = .ok t ↔ ∃ u, s.writeWord s.curData (s.sp - 2) v = .ok u ∧ t = u.setSP (s.sp - 2) := by
  unfold State.push16
  generalize s.sp - 2 = a
  cases s.writeWord s.curData a v with
  | error e => simp [bind, Except.bind]
  | ok u => simp [bind, Except.bind, pure, Except.pure, eq_comm]

/-! ### Operands -/

theorem wr8_eq_ok {len : Nat} {dst : Loc8} {v : Byte} {s t : State} (h : wr8 len dst v s = .ok t) :
    (∃ r, dst = .reg r ∧ t = s.setReg8 r v) ∨ (∃ q k, dst = .rx q k ∧ t = s.setHalf q k v) ∨
      ∃ m p, dst = .mem m ∧ s.reach (operandSpace m s) .write (ea len m s) = .ok p ∧ t = s.putByte p v := by
  cases dst with
  | reg r => exact .inl ⟨r, rfl, by simpa [wr8, eq_comm] using h⟩
  | rx q k => exact .inr (.inl ⟨q, k, rfl, by simpa [wr8, eq_comm] using h⟩)
  | mem m =>
    obtain ⟨p, hp, rfl⟩ := writeByte_eq_ok.mp h
    exact .inr (.inr ⟨m, p, rfl, hp, rfl⟩)

theorem wr16_eq_ok {len : Nat} {dst : Loc16} {v : Word} {s t : State} (h : wr16 len dst v s = .ok t) :
    (∃ w, dst = .reg w ∧ t = s.setReg16 w v) ∨
      ∃ m p p', dst = .mem m ∧ s.reach (operandSpace m s) .write (ea len m s) = .ok p ∧
        s.reach (operandSpace m s) .write (ea len m s + 1) = .ok p' ∧
        t = (s.putByte p (loByte v)).putByte p' (hiByte v) := by
  cases dst with
  | reg w => exact .inl ⟨w, rfl, by simpa [wr16, eq_comm] using h⟩
  | mem m =>
    obtain ⟨p, p', hp, hp', rfl⟩ := writeWord_eq_ok.mp h
    exact .inr ⟨m, p, p', rfl, hp, hp', rfl⟩

theorem wr8_of_writable {len : Nat} {dst : Loc8} (v : Byte) {s : State} (h : Writable8 len dst s)
    (hm : s.mem.wf = true) : ∃ t, wr8 len dst v s = .ok t ∧ Wrote8 len dst v s t ∧ Unchanged dst.regs s t ∧
      t.f = s.f ∧ t.pc = s.pc ∧ t.ioTrace = s.ioTrace := by
  cases dst with
  | reg r =>
    exact ⟨_, rfl, ⟨reg8_setReg8_same s r v, .of_eq (by simp) (by simp)⟩, unchanged_setReg8 s r v, by simp, by simp, by simp⟩
  | rx q k =>
    exact ⟨_, rfl, ⟨half_setHalf_same s q k v, .of_eq (by simp) (by simp)⟩, unchanged_setHalf s q k v, by simp, by simp,
      by simp⟩
  | mem m =>
    obtain ⟨p, hp⟩ := h
    refine ⟨s.putByte p v, writeByte_eq_ok.mpr ⟨p, hp, rfl⟩, fun p' hp' => ?_, unchanged_putByte s p v, rfl, rfl, rfl⟩
    cases hp.symm.trans hp'
    exact storedByte_putByte hm p v

theorem wr16_of_writable {len : Nat} {dst : Loc16} (v : Word) {s : State} (h : Writable16 len dst s)
    (hm : s.mem.wf = true) : ∃ t, wr16 len dst v s = .ok t ∧ Wrote16 len dst v s t ∧ Unchanged (dst.regs s) s t ∧
      t.f = s.f ∧ t.pc = s.pc ∧ t.ioTrace = s.ioTrace := by
  cases dst with
  | reg w =>
    exact ⟨_, rfl, ⟨reg16_setReg16_same s w v, .of_eq (by simp) (by simp)⟩, unchanged_setReg16 s w v, by simp, by simp,
      by simp⟩
  | mem m =>
    obtain ⟨⟨p, hp⟩, p', hp'⟩ := h
    refine ⟨_, writeWord_of_reach hp hp', fun q q' hq hq' => ?_, ?_, rfl, rfl, rfl⟩
    · cases hp.symm.trans hq
      cases hp'.symm.trans hq'
      exact storedWord_putByte hm _ _ _ _
    · exact (unchanged_putByte s p _).trans (unchanged_putByte _ p' _)

/-- What `Wrote8` says does not change when a later update leaves the registers and memory alone. -/
theorem Wrote8.congr {len : Nat} {dst : Loc8} {v : Byte} {s t u : State} (h : Wrote8 len dst v s t)
    (hr : ∀ r, u.reg8 r = t.reg8 r) (hh : ∀ q k, u.half q k = t.half q k) (hm : u.mem = t.mem)
    (hw : u.written = t.written) : Wrote8 len dst v s u := by
  have hm' := SameMemory.of_eq hm hw
  cases dst with
  | reg r => exact ⟨(hr r).trans h.1, fun q => (hm'.1 q).trans (h.2.1 q), fun q => (hm'.2 q).trans (h.2.2 q)⟩
  | rx q k => exact ⟨(hh q k).trans h.1, fun q => (hm'.1 q).trans (h.2.1 q), fun q => (hm'.2 q).trans (h.2.2 q)⟩
  | mem m =>
    intro p hp
    obtain ⟨a, b, c⟩ := h p hp
    exact ⟨(hm'.1 p).trans a, fun q hq => (hm'.1 q).trans (b q hq), fun q => (hm'.2 q).trans (c q)⟩

/-- A byte operand stops only where it is memory that its effective address does not reach. -/
theorem rdLoc8_eq_error {len : Nat} {l : Loc8} {s : State} {e : AccessStop} (h : rdLoc8 len l s = .error e) :
    ∃ m, l = .mem m ∧ s.reach (operandSpace m s) .read (ea len m s) = .error e := by
  cases l with
  | reg r => cases h
  | rx q k => cases h
  | mem m => exact ⟨m, rfl, readByte_eq_error.mp h⟩

theorem rd8_eq_error {len : Nat} {x : Src8} {s : State} {e : AccessStop} (h : rd8 len x s = .error e) :
    ∃ m, x = .loc (.mem m) ∧ s.reach (operandSpace m s) .read (ea len m s) = .error e := by
  cases x with
  | imm n => cases h
  | loc l =>
    obtain ⟨m, rfl, hm⟩ := rdLoc8_eq_error h
    exact ⟨m, rfl, hm⟩

theorem wr8_eq_error {len : Nat} {l : Loc8} {v : Byte} {s : State} {e : AccessStop} (h : wr8 len l v s = .error e) :
    ∃ m, l = .mem m ∧ s.reach (operandSpace m s) .write (ea len m s) = .error e := by
  cases l with
  | reg r => cases h
  | rx q k => cases h
  | mem m => exact ⟨m, rfl, writeByte_eq_error.mp h⟩

/-- A word operand stops only where it is memory that one of its two addresses does not reach. -/
theorem rdLoc16_eq_error {len : Nat} {l : Loc16} {s : State} {e : AccessStop} (h : rdLoc16 len l s = .error e) :
    ∃ m a, l = .mem m ∧ (a = ea len m s ∨ a = ea len m s + 1) ∧ s.reach (operandSpace m s) .read a = .error e := by
  cases l with
  | reg w => cases h
  | mem m =>
    rcases readWord_eq_error h with h | h
    · exact ⟨m, _, rfl, .inl rfl, h⟩
    · exact ⟨m, _, rfl, .inr rfl, h⟩

theorem rd16_eq_error {len : Nat} {x : Src16} {s : State} {e : AccessStop} (h : rd16 len x s = .error e) :
    ∃ m a, x = .loc (.mem m) ∧ (a = ea len m s ∨ a = ea len m s + 1) ∧
      s.reach (operandSpace m s) .read a = .error e := by
  cases x with
  | imm nn => cases h
  | loc l =>
    obtain ⟨m, a, rfl, ha⟩ := rdLoc16_eq_error h
    exact ⟨m, a, rfl, ha⟩

theorem wr16_eq_error {len : Nat} {l : Loc16} {v : Word} {s : State} {e : AccessStop} (h : wr16 len l v s = .error e) :
    ∃ m a, l = .mem m ∧ (a = ea len m s ∨ a = ea len m s + 1) ∧ s.reach (operandSpace m s) .write a = .error e := by
  cases l with
  | reg w => cases h
  | mem m =>
    rcases writeWord_eq_error h with h | h
    · exact ⟨m, _, rfl, .inl rfl, h⟩
    · exact ⟨m, _, rfl, .inr rfl, h⟩

/-- A push stops where one of the two bytes below the stack pointer is not reached. -/
theorem push16_eq_error {s : State} {v : Word} {e : AccessStop} (h : s.push16 v = .error e) :
    ∃ a, (a = s.sp - 2 ∨ a = s.sp - 1) ∧ s.reach s.curData .write a = .error e := by
  unfold State.push16 at h
  have ha : s.sp - 2 + 1 = s.sp - 1 := by bv_omega
  generalize s.sp - 2 = a at h ha ⊢
  cases hw : s.writeWord s.curData a v with
  | ok t => simp [hw, bind, Except.bind, pure, Except.pure] at h
  | error e' =>
    rcases writeWord_eq_error hw with hw' | hw'
    · exact ⟨_, .inl rfl, hw'.trans (by simpa [hw, bind, Except.bind] using h)⟩
    · exact ⟨_, .inr rfl, (ha ▸ hw').trans (by simpa [hw, bind, Except.bind] using h)⟩

/-! ### The step -/

theorem step_runs {s : State} {i : Instr} (hh : s.halted = false) (hs : s.msr.getLsbD s.cfg.msrSS = false)
    (hf : s.fetch = .instr i) : step s = exec i s := by
  rw [step, if_neg (by rw [hh]; exact Bool.false_ne_true), if_neg (by rw [hs]; exact Bool.false_ne_true), hf]

theorem step_eq_next {s t : State} : step s = .next t ↔
    (s.halted = true ∧ t = s) ∨ (s.halted = false ∧ s.msr.getLsbD s.cfg.msrSS = false ∧
      ∃ i, s.fetch = .instr i ∧ exec i s = .next t) := by
  constructor
  · intro h
    unfold step at h
    split at h
    · exact .inl ⟨‹_›, (Host.Outcome.next.inj h).symm⟩
    · split at h
      · exact absurd h (raise_ne_next _ _ _)
      · split at h
        · exact absurd h (stop_ne_next _ _ _)
        · cases h
        · exact .inr ⟨eq_false_of_ne_true ‹_›, eq_false_of_ne_true ‹_›, _, ‹_›, h⟩
  · rintro (⟨h, rfl⟩ | ⟨h, h', i, hf, he⟩)
    · rw [step, if_pos h]
    · rw [step_runs h h' hf, he]

end Sys2Proof.Machine
end

