-- ==== Sys2Proof/Laws/Exec.lean ====
section
/-! SUPPORT. The meaning of every instruction as the shared operation it is, so that no proof unfolds the dispatch. -/

namespace Sys2Proof.Machine

variable (s : State)

@[simp] theorem exec_ldReg (r : R8) (r2 : R8) : exec (.ldReg r r2) s = ld8 1 (.reg r) (.loc (.reg r2)) s := rfl
@[simp] theorem exec_ldGRx (xy : XY) (g : R8) (half : Half) :
    exec (.ldGRx xy g half) s = ld8 2 (.reg g) (.loc (.rx xy half)) s := rfl
@[simp] theorem exec_ldRxRx (xy : XY) (half : Half) (half2 : Half) :
    exec (.ldRxRx xy half half2) s = ld8 2 (.rx xy half) (.loc (.rx xy half2)) s := rfl
@[simp] theorem exec_ldRxG (xy : XY) (half : Half) (g : R8) :
    exec (.ldRxG xy half g) s = ld8 2 (.rx xy half) (.loc (.reg g)) s := rfl
@[simp] theorem exec_ldRHl (r : R8) : exec (.ldRHl r) s = ld8 1 (.reg r) (.loc (.mem (.ir .hl))) s := rfl
@[simp] theorem exec_ldRSx (xy : XY) (r : R8) (d : Byte) :
    exec (.ldRSx xy r d) s = ld8 3 (.reg r) (.loc (.mem (.sx xy d))) s := rfl
@[simp] theorem exec_ldHlR (r : R8) : exec (.ldHlR r) s = ld8 1 (.mem (.ir .hl)) (.loc (.reg r)) s := rfl
@[simp] theorem exec_ldSxR (xy : XY) (r : R8) (d : Byte) :
    exec (.ldSxR xy r d) s = ld8 3 (.mem (.sx xy d)) (.loc (.reg r)) s := rfl
@[simp] theorem exec_ldRN (r : R8) (n : Byte) : exec (.ldRN r n) s = ld8 2 (.reg r) (.imm n) s := rfl
@[simp] theorem exec_ldRxN (xy : XY) (half : Half) (n : Byte) :
    exec (.ldRxN xy half n) s = ld8 3 (.rx xy half) (.imm n) s := rfl
@[simp] theorem exec_ldHlN (n : Byte) : exec (.ldHlN n) s = ld8 2 (.mem (.ir .hl)) (.imm n) s := rfl
@[simp] theorem exec_ldDaN (addr : Word) (n : Byte) :
    exec (.ldDaN addr n) s = ld8 5 (.mem (.da addr)) (.imm n) s := rfl
@[simp] theorem exec_ldXN (base : XX) (dd : Word) (n : Byte) :
    exec (.ldXN base dd n) s = ld8 5 (.mem (.x base dd)) (.imm n) s := rfl
@[simp] theorem exec_ldSxN (xy : XY) (d : Byte) (n : Byte) :
    exec (.ldSxN xy d n) s = ld8 4 (.mem (.sx xy d)) (.imm n) s := rfl
@[simp] theorem exec_ldRaN (disp : Word) (n : Byte) :
    exec (.ldRaN disp n) s = ld8 5 (.mem (.ra disp)) (.imm n) s := rfl
@[simp] theorem exec_ldSrN (dd : Word) (n : Byte) : exec (.ldSrN dd n) s = ld8 5 (.mem (.sr dd)) (.imm n) s := rfl
@[simp] theorem exec_ldBxN (pair : BX) (n : Byte) : exec (.ldBxN pair n) s = ld8 3 (.mem (.bx pair)) (.imm n) s := rfl
@[simp] theorem exec_ldAIr (bd : BD) : exec (.ldAIr bd) s = ld8 1 (.reg .a) (.loc (.mem (.ir (ptrOfBD bd)))) s := rfl
@[simp] theorem exec_ldADa (addr : Word) : exec (.ldADa addr) s = ld8 3 (.reg .a) (.loc (.mem (.da addr))) s := rfl
@[simp] theorem exec_ldAX (base : XX) (dd : Word) :
    exec (.ldAX base dd) s = ld8 4 (.reg .a) (.loc (.mem (.x base dd))) s := rfl
@[simp] theorem exec_ldARa (disp : Word) : exec (.ldARa disp) s = ld8 4 (.reg .a) (.loc (.mem (.ra disp))) s := rfl
@[simp] theorem exec_ldASr (dd : Word) : exec (.ldASr dd) s = ld8 4 (.reg .a) (.loc (.mem (.sr dd))) s := rfl
@[simp] theorem exec_ldABx (pair : BX) : exec (.ldABx pair) s = ld8 2 (.reg .a) (.loc (.mem (.bx pair))) s := rfl
@[simp] theorem exec_ldIrA (bd : BD) : exec (.ldIrA bd) s = ld8 1 (.mem (.ir (ptrOfBD bd))) (.loc (.reg .a)) s := rfl
@[simp] theorem exec_ldDaA (addr : Word) : exec (.ldDaA addr) s = ld8 3 (.mem (.da addr)) (.loc (.reg .a)) s := rfl
@[simp] theorem exec_ldXA (base : XX) (dd : Word) :
    exec (.ldXA base dd) s = ld8 4 (.mem (.x base dd)) (.loc (.reg .a)) s := rfl
@[simp] theorem exec_ldRaA (disp : Word) : exec (.ldRaA disp) s = ld8 4 (.mem (.ra disp)) (.loc (.reg .a)) s := rfl
@[simp] theorem exec_ldSrA (dd : Word) : exec (.ldSrA dd) s = ld8 4 (.mem (.sr dd)) (.loc (.reg .a)) s := rfl
@[simp] theorem exec_ldBxA (pair : BX) : exec (.ldBxA pair) s = ld8 2 (.mem (.bx pair)) (.loc (.reg .a)) s := rfl
@[simp] theorem exec_exAR (r : R8) : exec (.exAR r) s = exchangeA 2 (.reg r) s := rfl
@[simp] theorem exec_exARx (xy : XY) (half : Half) : exec (.exARx xy half) s = exchangeA 3 (.rx xy half) s := rfl
@[simp] theorem exec_exAHl : exec .exAHl s = exchangeA 2 (.mem (.ir .hl)) s := rfl
@[simp] theorem exec_exADa (addr : Word) : exec (.exADa addr) s = exchangeA 5 (.mem (.da addr)) s := rfl
@[simp] theorem exec_exAX (base : XX) (dd : Word) : exec (.exAX base dd) s = exchangeA 5 (.mem (.x base dd)) s := rfl
@[simp] theorem exec_exASx (xy : XY) (d : Byte) : exec (.exASx xy d) s = exchangeA 4 (.mem (.sx xy d)) s := rfl
@[simp] theorem exec_exARa (disp : Word) : exec (.exARa disp) s = exchangeA 5 (.mem (.ra disp)) s := rfl
@[simp] theorem exec_exASr (dd : Word) : exec (.exASr dd) s = exchangeA 5 (.mem (.sr dd)) s := rfl
@[simp] theorem exec_exABx (pair : BX) : exec (.exABx pair) s = exchangeA 3 (.mem (.bx pair)) s := rfl
@[simp] theorem exec_exHL : exec .exHL s = .next ((s.setHL (joinBytes (loByte s.hl) (hiByte s.hl))).advance 2) := rfl
@[simp] theorem exec_ldudAHl : exec .ldudAHl s = ldUserLoad 2 .data (.ir .hl) s := rfl
@[simp] theorem exec_ldudASx (xy : XY) (d : Byte) : exec (.ldudASx xy d) s = ldUserLoad 4 .data (.sx xy d) s := rfl
@[simp] theorem exec_ldudHlA : exec .ldudHlA s = ldUserStore 2 .data (.ir .hl) s := rfl
@[simp] theorem exec_ldudSxA (xy : XY) (d : Byte) : exec (.ldudSxA xy d) s = ldUserStore 4 .data (.sx xy d) s := rfl
@[simp] theorem exec_ldupAHl : exec .ldupAHl s = ldUserLoad 2 .program (.ir .hl) s := rfl
@[simp] theorem exec_ldupASx (xy : XY) (d : Byte) : exec (.ldupASx xy d) s = ldUserLoad 4 .program (.sx xy d) s := rfl
@[simp] theorem exec_ldupHlA : exec .ldupHlA s = ldUserStore 2 .program (.ir .hl) s := rfl
@[simp] theorem exec_ldupSxA (xy : XY) (d : Byte) :
    exec (.ldupSxA xy d) s = ldUserStore 4 .program (.sx xy d) s := rfl
@[simp] theorem exec_exDeHl : exec .exDeHl s = exchangeHL 1 .de s := rfl
@[simp] theorem exec_exXyHl (xy : XY) : exec (.exXyHl xy) s = exchangeHL 2 (reg16OfXY xy) s := rfl
@[simp] theorem exec_exAfAf : exec .exAfAf s = .next { s.advance 1 with afSel := !s.afSel } := rfl
@[simp] theorem exec_exx : exec .exx s = .next { s.advance 1 with rfSel := !s.rfSel } := rfl
@[simp] theorem exec_exSpHl : exec .exSpHl s = exchangeTop 1 .hl s := rfl
@[simp] theorem exec_exSpXy (xy : XY) : exec (.exSpXy xy) s = exchangeTop 2 (reg16OfXY xy) s := rfl
@[simp] theorem exec_ldaHlX (base : XX) (dd : Word) : exec (.ldaHlX base dd) s = lda 4 .hl (.x base dd) s := rfl
@[simp] theorem exec_ldaXyX (xy : XY) (base : XX) (dd : Word) :
    exec (.ldaXyX xy base dd) s = lda 5 (reg16OfXY xy) (.x base dd) s := rfl
@[simp] theorem exec_ldaHlRa (disp : Word) : exec (.ldaHlRa disp) s = lda 4 .hl (.ra disp) s := rfl
@[simp] theorem exec_ldaXyRa (xy : XY) (disp : Word) :
    exec (.ldaXyRa xy disp) s = lda 5 (reg16OfXY xy) (.ra disp) s := rfl
@[simp] theorem exec_ldaHlSr (dd : Word) : exec (.ldaHlSr dd) s = lda 4 .hl (.sr dd) s := rfl
@[simp] theorem exec_ldaXySr (xy : XY) (dd : Word) : exec (.ldaXySr xy dd) s = lda 5 (reg16OfXY xy) (.sr dd) s := rfl
@[simp] theorem exec_ldaHlBx (pair : BX) : exec (.ldaHlBx pair) s = lda 2 .hl (.bx pair) s := rfl
@[simp] theorem exec_ldaXyBx (xy : XY) (pair : BX) :
    exec (.ldaXyBx xy pair) s = lda 3 (reg16OfXY xy) (.bx pair) s := rfl
@[simp] theorem exec_ldwRrN (w : RR) (nn : Word) : exec (.ldwRrN w nn) s = ldw 3 (.reg (reg16OfRR w)) nn s := rfl
@[simp] theorem exec_ldwXyN (xy : XY) (nn : Word) : exec (.ldwXyN xy nn) s = ldw 4 (.reg (reg16OfXY xy)) nn s := rfl
@[simp] theorem exec_ldwHlN (nn : Word) : exec (.ldwHlN nn) s = ldw 4 (.mem (.ir .hl)) nn s := rfl
@[simp] theorem exec_ldwDaN (addr : Word) (nn : Word) : exec (.ldwDaN addr nn) s = ldw 6 (.mem (.da addr)) nn s := rfl
@[simp] theorem exec_ldwRaN (disp : Word) (nn : Word) : exec (.ldwRaN disp nn) s = ldw 6 (.mem (.ra disp)) nn s := rfl
@[simp] theorem exec_ldi : exec .ldi s = blockLoad .inc false s := rfl
@[simp] theorem exec_ldd : exec .ldd s = blockLoad .dec false s := rfl
@[simp] theorem exec_ldir : exec .ldir s = blockLoad .inc true s := rfl
@[simp] theorem exec_lddr : exec .lddr s = blockLoad .dec true s := rfl
@[simp] theorem exec_cpi : exec .cpi s = blockCompare .inc false s := rfl
@[simp] theorem exec_cpd : exec .cpd s = blockCompare .dec false s := rfl
@[simp] theorem exec_cpir : exec .cpir s = blockCompare .inc true s := rfl
@[simp] theorem exec_cpdr : exec .cpdr s = blockCompare .dec true s := rfl
@[simp] theorem exec_adcAR (r : R8) : exec (.adcAR r) s = adcA 1 (.loc (.reg r)) s := rfl
@[simp] theorem exec_adcARx (xy : XY) (half : Half) : exec (.adcARx xy half) s = adcA 2 (.loc (.rx xy half)) s := rfl
@[simp] theorem exec_adcAN (n : Byte) : exec (.adcAN n) s = adcA 2 (.imm n) s := rfl
@[simp] theorem exec_adcAHl : exec .adcAHl s = adcA 1 (.loc (.mem (.ir .hl))) s := rfl
@[simp] theorem exec_adcADa (addr : Word) : exec (.adcADa addr) s = adcA 4 (.loc (.mem (.da addr))) s := rfl
@[simp] theorem exec_adcAX (base : XX) (dd : Word) :
    exec (.adcAX base dd) s = adcA 4 (.loc (.mem (.x base dd))) s := rfl
@[simp] theorem exec_adcASx (xy : XY) (d : Byte) : exec (.adcASx xy d) s = adcA 3 (.loc (.mem (.sx xy d))) s := rfl
@[simp] theorem exec_adcARa (disp : Word) : exec (.adcARa disp) s = adcA 4 (.loc (.mem (.ra disp))) s := rfl
@[simp] theorem exec_adcASr (dd : Word) : exec (.adcASr dd) s = adcA 4 (.loc (.mem (.sr dd))) s := rfl
@[simp] theorem exec_adcABx (pair : BX) : exec (.adcABx pair) s = adcA 2 (.loc (.mem (.bx pair))) s := rfl
@[simp] theorem exec_addAR (r : R8) : exec (.addAR r) s = addA 1 (.loc (.reg r)) s := rfl
@[simp] theorem exec_addARx (xy : XY) (half : Half) : exec (.addARx xy half) s = addA 2 (.loc (.rx xy half)) s := rfl
@[simp] theorem exec_addAN (n : Byte) : exec (.addAN n) s = addA 2 (.imm n) s := rfl
@[simp] theorem exec_addAHl : exec .addAHl s = addA 1 (.loc (.mem (.ir .hl))) s := rfl
@[simp] theorem exec_addADa (addr : Word) : exec (.addADa addr) s = addA 4 (.loc (.mem (.da addr))) s := rfl
@[simp] theorem exec_addAX (base : XX) (dd : Word) :
    exec (.addAX base dd) s = addA 4 (.loc (.mem (.x base dd))) s := rfl
@[simp] theorem exec_addASx (xy : XY) (d : Byte) : exec (.addASx xy d) s = addA 3 (.loc (.mem (.sx xy d))) s := rfl
@[simp] theorem exec_addARa (disp : Word) : exec (.addARa disp) s = addA 4 (.loc (.mem (.ra disp))) s := rfl
@[simp] theorem exec_addASr (dd : Word) : exec (.addASr dd) s = addA 4 (.loc (.mem (.sr dd))) s := rfl
@[simp] theorem exec_addABx (pair : BX) : exec (.addABx pair) s = addA 2 (.loc (.mem (.bx pair))) s := rfl
@[simp] theorem exec_andAR (r : R8) : exec (.andAR r) s = andA 1 (.loc (.reg r)) s := rfl
@[simp] theorem exec_andARx (xy : XY) (half : Half) : exec (.andARx xy half) s = andA 2 (.loc (.rx xy half)) s := rfl
@[simp] theorem exec_andAN (n : Byte) : exec (.andAN n) s = andA 2 (.imm n) s := rfl
@[simp] theorem exec_andAHl : exec .andAHl s = andA 1 (.loc (.mem (.ir .hl))) s := rfl
@[simp] theorem exec_andADa (addr : Word) : exec (.andADa addr) s = andA 4 (.loc (.mem (.da addr))) s := rfl
@[simp] theorem exec_andAX (base : XX) (dd : Word) :
    exec (.andAX base dd) s = andA 4 (.loc (.mem (.x base dd))) s := rfl
@[simp] theorem exec_andASx (xy : XY) (d : Byte) : exec (.andASx xy d) s = andA 3 (.loc (.mem (.sx xy d))) s := rfl
@[simp] theorem exec_andARa (disp : Word) : exec (.andARa disp) s = andA 4 (.loc (.mem (.ra disp))) s := rfl
@[simp] theorem exec_andASr (dd : Word) : exec (.andASr dd) s = andA 4 (.loc (.mem (.sr dd))) s := rfl
@[simp] theorem exec_andABx (pair : BX) : exec (.andABx pair) s = andA 2 (.loc (.mem (.bx pair))) s := rfl
@[simp] theorem exec_cpAR (r : R8) : exec (.cpAR r) s = cpA 1 (.loc (.reg r)) s := rfl
@[simp] theorem exec_cpARx (xy : XY) (half : Half) : exec (.cpARx xy half) s = cpA 2 (.loc (.rx xy half)) s := rfl
@[simp] theorem exec_cpAN (n : Byte) : exec (.cpAN n) s = cpA 2 (.imm n) s := rfl
@[simp] theorem exec_cpAHl : exec .cpAHl s = cpA 1 (.loc (.mem (.ir .hl))) s := rfl
@[simp] theorem exec_cpADa (addr : Word) : exec (.cpADa addr) s = cpA 4 (.loc (.mem (.da addr))) s := rfl
@[simp] theorem exec_cpAX (base : XX) (dd : Word) : exec (.cpAX base dd) s = cpA 4 (.loc (.mem (.x base dd))) s := rfl
@[simp] theorem exec_cpASx (xy : XY) (d : Byte) : exec (.cpASx xy d) s = cpA 3 (.loc (.mem (.sx xy d))) s := rfl
@[simp] theorem exec_cpARa (disp : Word) : exec (.cpARa disp) s = cpA 4 (.loc (.mem (.ra disp))) s := rfl
@[simp] theorem exec_cpASr (dd : Word) : exec (.cpASr dd) s = cpA 4 (.loc (.mem (.sr dd))) s := rfl
@[simp] theorem exec_cpABx (pair : BX) : exec (.cpABx pair) s = cpA 2 (.loc (.mem (.bx pair))) s := rfl
@[simp] theorem exec_cpl : exec .cpl s = complementA 1 s := rfl
@[simp] theorem exec_daa : exec .daa s = decimalAdjust 1 s := rfl
@[simp] theorem exec_decR (r : R8) : exec (.decR r) s = dec8 1 (.reg r) s := rfl
@[simp] theorem exec_decRx (xy : XY) (half : Half) : exec (.decRx xy half) s = dec8 2 (.rx xy half) s := rfl
@[simp] theorem exec_decHl : exec .decHl s = dec8 1 (.mem (.ir .hl)) s := rfl
@[simp] theorem exec_decDa (addr : Word) : exec (.decDa addr) s = dec8 4 (.mem (.da addr)) s := rfl
@[simp] theorem exec_decX (base : XX) (dd : Word) : exec (.decX base dd) s = dec8 4 (.mem (.x base dd)) s := rfl
@[simp] theorem exec_decSx (xy : XY) (d : Byte) : exec (.decSx xy d) s = dec8 3 (.mem (.sx xy d)) s := rfl
@[simp] theorem exec_decRa (disp : Word) : exec (.decRa disp) s = dec8 4 (.mem (.ra disp)) s := rfl
@[simp] theorem exec_decSr (dd : Word) : exec (.decSr dd) s = dec8 4 (.mem (.sr dd)) s := rfl
@[simp] theorem exec_decBx (pair : BX) : exec (.decBx pair) s = dec8 2 (.mem (.bx pair)) s := rfl
@[simp] theorem exec_divR (r : R8) : exec (.divR r) s = div8 2 (.loc (.reg r)) s := rfl
@[simp] theorem exec_divRx (xy : XY) (half : Half) : exec (.divRx xy half) s = div8 3 (.loc (.rx xy half)) s := rfl
@[simp] theorem exec_divN (n : Byte) : exec (.divN n) s = div8 4 (.imm n) s := rfl
@[simp] theorem exec_divHl : exec .divHl s = div8 2 (.loc (.mem (.ir .hl))) s := rfl
@[simp] theorem exec_divDa (addr : Word) : exec (.divDa addr) s = div8 5 (.loc (.mem (.da addr))) s := rfl
@[simp] theorem exec_divX (base : XX) (dd : Word) :
    exec (.divX base dd) s = div8 5 (.loc (.mem (.x base dd))) s := rfl
@[simp] theorem exec_divSx (xy : XY) (d : Byte) : exec (.divSx xy d) s = div8 4 (.loc (.mem (.sx xy d))) s := rfl
@[simp] theorem exec_divRa (disp : Word) : exec (.divRa disp) s = div8 5 (.loc (.mem (.ra disp))) s := rfl
@[simp] theorem exec_divSr (dd : Word) : exec (.divSr dd) s = div8 5 (.loc (.mem (.sr dd))) s := rfl
@[simp] theorem exec_divBx (pair : BX) : exec (.divBx pair) s = div8 3 (.loc (.mem (.bx pair))) s := rfl
@[simp] theorem exec_divuR (r : R8) : exec (.divuR r) s = divu8 2 (.loc (.reg r)) s := rfl
@[simp] theorem exec_divuRx (xy : XY) (half : Half) : exec (.divuRx xy half) s = divu8 3 (.loc (.rx xy half)) s := rfl
@[simp] theorem exec_divuN (n : Byte) : exec (.divuN n) s = divu8 4 (.imm n) s := rfl
@[simp] theorem exec_divuHl : exec .divuHl s = divu8 2 (.loc (.mem (.ir .hl))) s := rfl
@[simp] theorem exec_divuDa (addr : Word) : exec (.divuDa addr) s = divu8 5 (.loc (.mem (.da addr))) s := rfl
@[simp] theorem exec_divuX (base : XX) (dd : Word) :
    exec (.divuX base dd) s = divu8 5 (.loc (.mem (.x base dd))) s := rfl
@[simp] theorem exec_divuSx (xy : XY) (d : Byte) : exec (.divuSx xy d) s = divu8 4 (.loc (.mem (.sx xy d))) s := rfl
@[simp] theorem exec_divuRa (disp : Word) : exec (.divuRa disp) s = divu8 5 (.loc (.mem (.ra disp))) s := rfl
@[simp] theorem exec_divuSr (dd : Word) : exec (.divuSr dd) s = divu8 5 (.loc (.mem (.sr dd))) s := rfl
@[simp] theorem exec_divuBx (pair : BX) : exec (.divuBx pair) s = divu8 3 (.loc (.mem (.bx pair))) s := rfl
@[simp] theorem exec_extsA : exec .extsA s = extendA 2 s := rfl
@[simp] theorem exec_incR (r : R8) : exec (.incR r) s = inc8 1 (.reg r) s := rfl
@[simp] theorem exec_incRx (xy : XY) (half : Half) : exec (.incRx xy half) s = inc8 2 (.rx xy half) s := rfl
@[simp] theorem exec_incHl : exec .incHl s = inc8 1 (.mem (.ir .hl)) s := rfl
@[simp] theorem exec_incDa (addr : Word) : exec (.incDa addr) s = inc8 4 (.mem (.da addr)) s := rfl
@[simp] theorem exec_incX (base : XX) (dd : Word) : exec (.incX base dd) s = inc8 4 (.mem (.x base dd)) s := rfl
@[simp] theorem exec_incSx (xy : XY) (d : Byte) : exec (.incSx xy d) s = inc8 3 (.mem (.sx xy d)) s := rfl
@[simp] theorem exec_incRa (disp : Word) : exec (.incRa disp) s = inc8 4 (.mem (.ra disp)) s := rfl
@[simp] theorem exec_incSr (dd : Word) : exec (.incSr dd) s = inc8 4 (.mem (.sr dd)) s := rfl
@[simp] theorem exec_incBx (pair : BX) : exec (.incBx pair) s = inc8 2 (.mem (.bx pair)) s := rfl
@[simp] theorem exec_adcHlRr (w : RR) : exec (.adcHlRr w) s = adcWord 2 .hl (reg16OfRR w) s := rfl
@[simp] theorem exec_adcXyRr (xy : XY) (w : RRX) :
    exec (.adcXyRr xy w) s = adcWord 3 (reg16OfXY xy) (reg16OfRRX xy w) s := rfl
@[simp] theorem exec_addHlRr (w : RR) : exec (.addHlRr w) s = addWord 1 .hl (reg16OfRR w) s := rfl
@[simp] theorem exec_addXyRr (xy : XY) (w : RRX) :
    exec (.addXyRr xy w) s = addWord 2 (reg16OfXY xy) (reg16OfRRX xy w) s := rfl
@[simp] theorem exec_addHlA : exec .addHlA s = addAccumulator 2 .hl s := rfl
@[simp] theorem exec_addXyA (xy : XY) : exec (.addXyA xy) s = addAccumulator 3 (reg16OfXY xy) s := rfl
@[simp] theorem exec_addwRr (w : RR) : exec (.addwRr w) s = addw 2 (.loc (.reg (reg16OfRR w))) s := rfl
@[simp] theorem exec_addwXy (xy : XY) : exec (.addwXy xy) s = addw 3 (.loc (.reg (reg16OfXY xy))) s := rfl
@[simp] theorem exec_addwN (nn : Word) : exec (.addwN nn) s = addw 5 (.imm nn) s := rfl
@[simp] theorem exec_addwDa (addr : Word) : exec (.addwDa addr) s = addw 5 (.loc (.mem (.da addr))) s := rfl
@[simp] theorem exec_addwX (xy : XY) (dd : Word) :
    exec (.addwX xy dd) s = addw 5 (.loc (.mem (.x (xxOfXY xy) dd))) s := rfl
@[simp] theorem exec_addwRa (disp : Word) : exec (.addwRa disp) s = addw 5 (.loc (.mem (.ra disp))) s := rfl
@[simp] theorem exec_addwHl : exec .addwHl s = addw 3 (.loc (.mem (.ir .hl))) s := rfl
@[simp] theorem exec_cpwRr (w : RR) : exec (.cpwRr w) s = cpw 2 (.loc (.reg (reg16OfRR w))) s := rfl
@[simp] theorem exec_cpwXy (xy : XY) : exec (.cpwXy xy) s = cpw 3 (.loc (.reg (reg16OfXY xy))) s := rfl
@[simp] theorem exec_cpwN (nn : Word) : exec (.cpwN nn) s = cpw 5 (.imm nn) s := rfl
@[simp] theorem exec_cpwDa (addr : Word) : exec (.cpwDa addr) s = cpw 5 (.loc (.mem (.da addr))) s := rfl
@[simp] theorem exec_cpwX (xy : XY) (dd : Word) :
    exec (.cpwX xy dd) s = cpw 5 (.loc (.mem (.x (xxOfXY xy) dd))) s := rfl
@[simp] theorem exec_cpwRa (disp : Word) : exec (.cpwRa disp) s = cpw 5 (.loc (.mem (.ra disp))) s := rfl
@[simp] theorem exec_cpwHl : exec .cpwHl s = cpw 3 (.loc (.mem (.ir .hl))) s := rfl
@[simp] theorem exec_decwRr (w : RR) : exec (.decwRr w) s = decw 1 (.reg (reg16OfRR w)) s := rfl
@[simp] theorem exec_decwXy (xy : XY) : exec (.decwXy xy) s = decw 2 (.reg (reg16OfXY xy)) s := rfl
@[simp] theorem exec_decwHl : exec .decwHl s = decw 2 (.mem (.ir .hl)) s := rfl
@[simp] theorem exec_decwDa (addr : Word) : exec (.decwDa addr) s = decw 4 (.mem (.da addr)) s := rfl
@[simp] theorem exec_decwX (xy : XY) (dd : Word) : exec (.decwX xy dd) s = decw 4 (.mem (.x (xxOfXY xy) dd)) s := rfl
@[simp] theorem exec_decwRa (disp : Word) : exec (.decwRa disp) s = decw 4 (.mem (.ra disp)) s := rfl
@[simp] theorem exec_divwRr (w : RR) : exec (.divwRr w) s = divw 2 (.loc (.reg (reg16OfRR w))) s := rfl
@[simp] theorem exec_divwXy (xy : XY) : exec (.divwXy xy) s = divw 3 (.loc (.reg (reg16OfXY xy))) s := rfl
@[simp] theorem exec_divwN (nn : Word) : exec (.divwN nn) s = divw 5 (.imm nn) s := rfl
@[simp] theorem exec_divwDa (addr : Word) : exec (.divwDa addr) s = divw 5 (.loc (.mem (.da addr))) s := rfl
@[simp] theorem exec_divwX (xy : XY) (dd : Word) :
    exec (.divwX xy dd) s = divw 5 (.loc (.mem (.x (xxOfXY xy) dd))) s := rfl
@[simp] theorem exec_divwRa (disp : Word) : exec (.divwRa disp) s = divw 5 (.loc (.mem (.ra disp))) s := rfl
@[simp] theorem exec_divwHl : exec .divwHl s = divw 3 (.loc (.mem (.ir .hl))) s := rfl
@[simp] theorem exec_divuwRr (w : RR) : exec (.divuwRr w) s = divuw 2 (.loc (.reg (reg16OfRR w))) s := rfl
@[simp] theorem exec_divuwXy (xy : XY) : exec (.divuwXy xy) s = divuw 3 (.loc (.reg (reg16OfXY xy))) s := rfl
@[simp] theorem exec_divuwN (nn : Word) : exec (.divuwN nn) s = divuw 5 (.imm nn) s := rfl
@[simp] theorem exec_divuwDa (addr : Word) : exec (.divuwDa addr) s = divuw 5 (.loc (.mem (.da addr))) s := rfl
@[simp] theorem exec_divuwX (xy : XY) (dd : Word) :
    exec (.divuwX xy dd) s = divuw 5 (.loc (.mem (.x (xxOfXY xy) dd))) s := rfl
@[simp] theorem exec_divuwRa (disp : Word) : exec (.divuwRa disp) s = divuw 5 (.loc (.mem (.ra disp))) s := rfl
@[simp] theorem exec_divuwHl : exec .divuwHl s = divuw 3 (.loc (.mem (.ir .hl))) s := rfl
@[simp] theorem exec_extsHl : exec .extsHl s = extendHL 2 s := rfl
@[simp] theorem exec_incwRr (w : RR) : exec (.incwRr w) s = incw 1 (.reg (reg16OfRR w)) s := rfl
@[simp] theorem exec_incwXy (xy : XY) : exec (.incwXy xy) s = incw 2 (.reg (reg16OfXY xy)) s := rfl
@[simp] theorem exec_incwHl : exec .incwHl s = incw 2 (.mem (.ir .hl)) s := rfl
@[simp] theorem exec_incwDa (addr : Word) : exec (.incwDa addr) s = incw 4 (.mem (.da addr)) s := rfl
@[simp] theorem exec_incwX (xy : XY) (dd : Word) : exec (.incwX xy dd) s = incw 4 (.mem (.x (xxOfXY xy) dd)) s := rfl
@[simp] theorem exec_incwRa (disp : Word) : exec (.incwRa disp) s = incw 4 (.mem (.ra disp)) s := rfl
@[simp] theorem exec_bitR (bit : BitVec 3) (r : R8) : exec (.bitR bit r) s = bitTest 2 bit (.reg r) s := rfl
@[simp] theorem exec_bitHl (bit : BitVec 3) : exec (.bitHl bit) s = bitTest 2 bit (.mem (.ir .hl)) s := rfl
@[simp] theorem exec_bitSx (xy : XY) (d : Byte) (bit : BitVec 3) :
    exec (.bitSx xy d bit) s = bitTest 4 bit (.mem (.sx xy d)) s := rfl
@[simp] theorem exec_callCcHl (cc : CC) : exec (.callCcHl cc) s = call 2 (condHolds cc s.f) (.ir .hl) s := rfl
@[simp] theorem exec_callHl : exec .callHl s = call 2 true (.ir .hl) s := rfl
@[simp] theorem exec_callCc (cc : CC) (addr : Word) :
    exec (.callCc cc addr) s = call 3 (condHolds cc s.f) (.da addr) s := rfl
@[simp] theorem exec_callDa (addr : Word) : exec (.callDa addr) s = call 3 true (.da addr) s := rfl
@[simp] theorem exec_callCcRa (cc : CC) (disp : Word) :
    exec (.callCcRa cc disp) s = call 4 (condHolds cc s.f) (.ra disp) s := rfl
@[simp] theorem exec_callRa (disp : Word) : exec (.callRa disp) s = call 4 true (.ra disp) s := rfl
@[simp] theorem exec_ccf :
    exec .ccf s = .next ((s.putFlags fun f => { f with h := f.c, n := false, c := !f.c }).advance 1) := rfl
@[simp] theorem exec_djnz (disp : Byte) : exec (.djnz disp) s = decrementJump 2 disp s := rfl
@[simp] theorem exec_jpCcHl (cc : CC) : exec (.jpCcHl cc) s = jump 2 (condHolds cc s.f) (.ir .hl) s := rfl
@[simp] theorem exec_jpHl : exec .jpHl s = jump 1 true (.ir .hl) s := rfl
@[simp] theorem exec_jpXy (xy : XY) : exec (.jpXy xy) s = jump 2 true (.ir (ptrOfXY xy)) s := rfl
@[simp] theorem exec_jpCc (cc : CC) (addr : Word) :
    exec (.jpCc cc addr) s = jump 3 (condHolds cc s.f) (.da addr) s := rfl
@[simp] theorem exec_jpDa (addr : Word) : exec (.jpDa addr) s = jump 3 true (.da addr) s := rfl
@[simp] theorem exec_jpCcRa (cc : CC) (disp : Word) :
    exec (.jpCcRa cc disp) s = jump 4 (condHolds cc s.f) (.ra disp) s := rfl
@[simp] theorem exec_jpRa (disp : Word) : exec (.jpRa disp) s = jump 4 true (.ra disp) s := rfl
@[simp] theorem exec_jrCc (jcc : JCC) (disp : Byte) :
    exec (.jrCc jcc disp) s = jumpShort 2 (jrHolds jcc s.f) disp s := rfl
@[simp] theorem exec_jr (disp : Byte) : exec (.jr disp) s = jumpShort 2 true disp s := rfl
@[simp] theorem exec_jaf (disp : Byte) : exec (.jaf disp) s = jumpShort 3 s.afSel disp s := rfl
@[simp] theorem exec_jar (disp : Byte) : exec (.jar disp) s = jumpShort 3 s.rfSel disp s := rfl
@[simp] theorem exec_inR (r : R8) : exec (.inR r) s = inputC 2 (.reg r) s := rfl
@[simp] theorem exec_inRx (xy : XY) (half : Half) : exec (.inRx xy half) s = inputC 3 (.rx xy half) s := rfl
@[simp] theorem exec_inDa (addr : Word) : exec (.inDa addr) s = inputC 5 (.mem (.da addr)) s := rfl
@[simp] theorem exec_inX (base : XX) (dd : Word) : exec (.inX base dd) s = inputC 5 (.mem (.x base dd)) s := rfl
@[simp] theorem exec_inRa (disp : Word) : exec (.inRa disp) s = inputC 5 (.mem (.ra disp)) s := rfl
@[simp] theorem exec_inSr (dd : Word) : exec (.inSr dd) s = inputC 5 (.mem (.sr dd)) s := rfl
@[simp] theorem exec_inBx (pair : BX) : exec (.inBx pair) s = inputC 3 (.mem (.bx pair)) s := rfl
@[simp] theorem exec_inAN (n : Byte) : exec (.inAN n) s = inputA 2 n s := rfl
@[simp] theorem exec_inw : exec .inw s = inputHL 2 s := rfl
@[simp] theorem exec_ini : exec .ini s = blockInput .inc false s := rfl
@[simp] theorem exec_iniw : exec .iniw s = blockInputWord .inc false s := rfl
@[simp] theorem exec_ind : exec .ind s = blockInput .dec false s := rfl
@[simp] theorem exec_indw : exec .indw s = blockInputWord .dec false s := rfl
@[simp] theorem exec_inir : exec .inir s = blockInput .inc true s := rfl
@[simp] theorem exec_inirw : exec .inirw s = blockInputWord .inc true s := rfl
@[simp] theorem exec_indr : exec .indr s = blockInput .dec true s := rfl
@[simp] theorem exec_indrw : exec .indrw s = blockInputWord .dec true s := rfl
@[simp] theorem exec_di : exec .di s = disableInterrupts 1 0x7F s := rfl
@[simp] theorem exec_diMask (mask : Byte) : exec (.diMask mask) s = disableInterrupts 3 mask s := rfl
@[simp] theorem exec_ei : exec .ei s = enableInterrupts 1 0x7F s := rfl
@[simp] theorem exec_eiMask (mask : Byte) : exec (.eiMask mask) s = enableInterrupts 3 mask s := rfl
@[simp] theorem exec_halt : exec .halt s = haltCpu 1 s := rfl
@[simp] theorem exec_im0 : exec .im0 s = setInterruptMode 2 0 s := rfl
@[simp] theorem exec_im1 : exec .im1 s = setInterruptMode 2 1 s := rfl
@[simp] theorem exec_im2 : exec .im2 s = setInterruptMode 2 2 s := rfl
@[simp] theorem exec_im3 : exec .im3 s = setInterruptMode 2 3 s := rfl
@[simp] theorem exec_ldIA : exec .ldIA s = loadI 2 s := rfl
@[simp] theorem exec_ldRfA : exec .ldRfA s = loadR 2 s := rfl
@[simp] theorem exec_ldAI : exec .ldAI s = readSpecial 2 s.i s := rfl
@[simp] theorem exec_ldARf : exec .ldARf s = readSpecial 2 s.r s := rfl
@[simp] theorem exec_ldctlHlC : exec .ldctlHlC s = loadFromControl 2 .hl s := rfl
@[simp] theorem exec_ldctlXyC (xy : XY) : exec (.ldctlXyC xy) s = loadFromControl 3 (reg16OfXY xy) s := rfl
@[simp] theorem exec_ldctlCHl : exec .ldctlCHl s = loadToControl 2 .hl s := rfl
@[simp] theorem exec_ldctlCXy (xy : XY) : exec (.ldctlCXy xy) s = loadToControl 3 (reg16OfXY xy) s := rfl
@[simp] theorem exec_ldctlHlUsp : exec .ldctlHlUsp s = loadFromUsp 2 .hl s := rfl
@[simp] theorem exec_ldctlXyUsp (xy : XY) : exec (.ldctlXyUsp xy) s = loadFromUsp 3 (reg16OfXY xy) s := rfl
@[simp] theorem exec_ldctlUspHl : exec .ldctlUspHl s = loadToUsp 2 .hl s := rfl
@[simp] theorem exec_ldctlUspXy (xy : XY) : exec (.ldctlUspXy xy) s = loadToUsp 3 (reg16OfXY xy) s := rfl

end Sys2Proof.Machine
end

