-- ==== Sys2Proof/Laws/Fetch.lean ====
section
/-! SUPPORT. What the fetch reads: whole instructions byte by byte, and where it stops. -/

namespace Sys2Proof.Machine

/-- The bytes still to be fetched make an instruction with the bytes `got`, and none of their beginnings does. -/
theorem fetchFrom_instr {s : State} {i : Instr} {rest : List Byte} : ∀ {bs got : List Byte} {fuel : Nat},
    bs ≠ [] → bs.length ≤ fuel →
    (∀ (k : Nat) (h : k < bs.length), s.fetchByte (got.length + k) = .byte (bs[k])) →
    (∀ k : Nat, 0 < k → k < bs.length → decode (got ++ bs.take k) = .short) →
    decode (got ++ bs) = .ok i rest → s.fetchFrom fuel got = .instr i
  | [], _, _, hne, _, _, _, _ => absurd rfl hne
  | b :: bs, got, 0, _, hl, _, _, _ => absurd hl (by simp)
  | b :: bs, got, fuel + 1, _, hl, hb, hs, hd => by
    have h0 : s.fetchByte got.length = .byte b := hb 0 (by simp)
    rw [State.fetchFrom, h0]
    cases bs with
    | nil => simp only [hd]
    | cons c cs =>
      have h1 : decode (got ++ [b]) = .short := hs 1 (by decide) (by simp)
      simp only [h1]
      refine fetchFrom_instr (bs := c :: cs) (List.cons_ne_nil _ _) (by simpa using hl) (fun k hk => ?_)
        (fun k hk hk' => ?_) (by simpa using hd)
      · have := hb (k + 1) (by simpa using hk)
        simpa [Nat.add_assoc, Nat.add_comm 1 k] using this
      · simpa using hs (k + 1) (Nat.succ_pos k) (by simpa using hk')

/-- Where the bytes `bs` decide nothing, the fetch goes on with the byte after them. -/
theorem fetchFrom_short {s : State} : ∀ {bs got : List Byte} {fuel : Nat},
    (∀ (k : Nat) (h : k < bs.length), s.fetchByte (got.length + k) = .byte (bs[k])) →
    (∀ k : Nat, k ≤ bs.length → decode (got ++ bs.take k) = .short) →
    s.fetchFrom (bs.length + fuel) got = s.fetchFrom fuel (got ++ bs)
  | [], got, fuel, _, _ => by simp
  | b :: bs, got, fuel, hb, hs => by
    have h0 : s.fetchByte got.length = .byte b := hb 0 (by simp)
    have h1 : decode (got ++ [b]) = .short := hs 1 (by simp)
    have e : (b :: bs).length + fuel = (bs.length + fuel) + 1 := by simp; omega
    rw [e, State.fetchFrom, h0]
    simp only [h1]
    rw [fetchFrom_short (bs := bs) (got := got ++ [b]) (fun k hk => ?_) (fun k hk => ?_)]
    · simp
    · have := hb (k + 1) (by simpa using hk)
      simpa [Nat.add_assoc, Nat.add_comm 1 k] using this
    · simpa using hs (k + 1) (by simpa using hk)

end Sys2Proof.Machine
end

