-- ==== Sys2Proof/Laws/Forms.lean ====
section
/-! SUPPORT. What every form of a family runs: one equation per family, so that a statement about a form is proved once over
the family's operation. -/

namespace Sys2Proof.Machine

variable {i : Instr} {len : Nat} {s : State}

theorem LoadForm.exec_eq {dst : Loc8} {src : Src8} (h : LoadForm i len dst src) : exec i s = ld8 len dst src s := by
  cases h <;> rfl

theorem ExchangeAForm.exec_eq {src : Loc8} (h : ExchangeAForm i len src) : exec i s = exchangeA len src s := by
  cases h <;> rfl

theorem UserLoadForm.exec_eq {k : Kind} {m : MemOperand} (h : UserLoadForm i len k m) :
    exec i s = ldUserLoad len k m s := by cases h <;> rfl

theorem UserStoreForm.exec_eq {k : Kind} {m : MemOperand} (h : UserStoreForm i len k m) :
    exec i s = ldUserStore len k m s := by cases h <;> rfl

theorem StackTopForm.exec_eq {w : Reg16} (h : StackTopForm i len w) : exec i s = exchangeTop len w s := by
  cases h <;> rfl

theorem LoadWordForm.exec_eq {dst : Loc16} {nn : Word} (h : LoadWordForm i len dst nn) :
    exec i s = ldw len dst nn s := by cases h <;> rfl

theorem BlockLoadForm.exec_eq {d : Dir} {rep : Bool} (h : BlockLoadForm i d rep) : exec i s = blockLoad d rep s := by
  cases h <;> rfl

theorem BlockCompareForm.exec_eq {d : Dir} {rep : Bool} (h : BlockCompareForm i d rep) :
    exec i s = blockCompare d rep s := by cases h <;> rfl

theorem Alu8Form.exec_eq {op : Alu8} {src : Src8} (h : Alu8Form op i len src) :
    exec i s = match op with
      | .adc => adcA len src s
      | .add => addA len src s
      | .and => andA len src s
      | .cp => cpA len src s
      | .div => div8 len src s
      | .divu => divu8 len src s := by cases h <;> rfl

theorem Alu16Form.exec_eq {op : Alu16} {src : Src16} (h : Alu16Form op i len src) :
    exec i s = match op with
      | .addw => addw len src s
      | .cpw => cpw len src s
      | .divw => divw len src s
      | .divuw => divuw len src s := by cases h <;> rfl

theorem Count8Form.exec_eq {d : Dir} {dst : Loc8} (h : Count8Form d i len dst) :
    exec i s = match d with
      | .inc => inc8 len dst s
      | .dec => dec8 len dst s := by cases h <;> rfl

theorem Count16Form.exec_eq {d : Dir} {dst : Loc16} (h : Count16Form d i len dst) :
    exec i s = match d with
      | .inc => incw len dst s
      | .dec => decw len dst s := by cases h <;> rfl

theorem BitForm.exec_eq {b : BitVec 3} {l : Loc8} (h : BitForm i len b l) : exec i s = bitTest len b l s := by
  cases h <;> rfl

theorem CallForm.exec_eq {c : Cond} {m : MemOperand} (h : CallForm i len c m) :
    exec i s = call len (c.holds s) m s := by
  cases h with
  | callCcHl cc => cases cc <;> rfl
  | callCc cc _ => cases cc <;> rfl
  | callCcRa cc _ => cases cc <;> rfl
  | _ => rfl

theorem InputForm.exec_eq {dst : Loc8} (h : InputForm i len dst) : exec i s = inputC len dst s := by cases h <;> rfl

theorem BlockInputForm.exec_eq {w : IoWidth} {d : Dir} {rep : Bool} (h : BlockInputForm i w d rep) :
    exec i s = match w with
      | .byte => blockInput d rep s
      | .word => blockInputWord d rep s := by cases h <;> rfl

/-- An access that `Translate` reports reaches nothing: it is the violation that the trap then carries. -/
theorem reach_of_violation {sp : Space} {acc : Access} {a : Word} {wp valid : Bool}
    (h : s.translateAt sp acc a = .violation wp valid) :
    s.reach sp acc a =
      .error (.violation { space := sp, access := acc, addr := a, wp := wp, valid := valid }) := by
  simp [State.reach, h]

/-- A violation comes from `Translate`, at the access that it names. -/
theorem violation_of_reach {sp : Space} {acc : Access} {a : Word} {v : Violation}
    (h : s.reach sp acc a = .error (.violation v)) :
    v.space = sp ∧ v.access = acc ∧ v.addr = a ∧ s.translateAt sp acc a = .violation v.wp v.valid := by
  unfold State.reach at h
  split at h
  · cases h
    exact ⟨rfl, rfl, rfl, ‹_›⟩
  · split at h <;> cases h

end Sys2Proof.Machine
end

