-- ==== Sys2Proof/Laws/Moves.lean ====
section
/-! SUPPORT. What a step can do, said once: every next state is reached by the named updates of the state, and by writes
of the control registers only in system mode, and by input transactions only where they are not inhibited. An invariant
that each named update keeps is one that every step keeps. -/

namespace Sys2Proof.Machine

/-- `u` is `t` but for I, R, the control registers, USP, `ei_shadow` and `halted`. -/
def SameButControl (t u : State) : Prop :=
  u = { t with
    i := u.i, r := u.r, msr := u.msr, isr := u.isr, itvtp := u.itvtp, slr := u.slr, iop := u.iop, tcr := u.tcr,
    bti := u.bti, btc := u.btc, ccr := u.ccr, lar := u.lar, usp := u.usp, eiShadow := u.eiShadow,
    halted := u.halted }

/-- The states reached from `s` by the named updates. -/
inductive Moves (s : State) : State → Prop
  | refl : Moves s s
  | setAF {t : State} (h : Moves s t) (x : AF) : Moves s (t.setAF x)
  | setGP {t : State} (h : Moves s t) (x : GP) : Moves s (t.setGP x)
  | setXY {t : State} (h : Moves s t) (q : XY) (v : Word) : Moves s (t.setXY q v)
  | setSP {t : State} (h : Moves s t) (v : Word) : Moves s (t.setSP v)
  | drawn {t : State} (h : Moves s t) : Moves s t.drawn
  | jump {t : State} (h : Moves s t) (v : Word) : Moves s (t.jump v)
  | putByte {t : State} (h : Moves s t) (p : PhysAddr) (b : Byte) : Moves s (t.putByte p b)
  | ioDone {t : State} (h : Moves s t) (hio : ¬(s.mode = .user ∧ s.tcr.getLsbD s.cfg.tcrI = true))
      (a : IoAddr) (w : IoWidth) : Moves s (t.ioDone a w)
  | swapAF {t : State} (h : Moves s t) (b : Bool) : Moves s { t with afSel := b }
  | swapRF {t : State} (h : Moves s t) (b : Bool) : Moves s { t with rfSel := b }
  | control {t u : State} (h : Moves s t) (hs : s.mode = .system) (hu : SameButControl t u) : Moves s u

variable {s t : State}

/-! ### The operations put together from the updates -/

theorem Moves.setReg8 (h : Moves s t) (g : R8) (v : Byte) : Moves s (t.setReg8 g v) := by
  cases g
  case a => exact h.setAF _
  all_goals exact h.setGP _

theorem Moves.setHalf (h : Moves s t) (q : XY) (k : Half) (v : Byte) : Moves s (t.setHalf q k v) := by
  cases k <;> exact h.setXY _ _

theorem Moves.setReg16 (h : Moves s t) (w : Reg16) (v : Word) : Moves s (t.setReg16 w v) := by
  cases w
  case sp => exact h.setSP _
  case ix => exact h.setXY .ix v
  case iy => exact h.setXY .iy v
  all_goals exact h.setGP _

theorem Moves.setA (h : Moves s t) (v : Byte) : Moves s (t.setA v) := h.setAF _

theorem Moves.setHL (h : Moves s t) (v : Word) : Moves s (t.setHL v) := h.setGP _

theorem Moves.setDE (h : Moves s t) (v : Word) : Moves s (t.setDE v) := h.setGP _

theorem Moves.setBC (h : Moves s t) (v : Word) : Moves s (t.setBC v) := h.setGP _

theorem Moves.putFlags (h : Moves s t) (g : Flags → Flags) : Moves s (t.putFlags g) := (h.setAF _).drawn

theorem Moves.advance (h : Moves s t) (n : Nat) : Moves s (t.advance n) := h.jump _

theorem Moves.wr8 {u : State} {len : Nat} {dst : Loc8} {v : Byte} (h : Moves s t) (hw : wr8 len dst v t = .ok u) :
    Moves s u := by
  obtain ⟨r, -, rfl⟩ | ⟨q, k, -, rfl⟩ | ⟨m, p, -, -, rfl⟩ := wr8_eq_ok hw
  · exact h.setReg8 r v
  · exact h.setHalf q k v
  · exact h.putByte p v

theorem Moves.wr16 {u : State} {len : Nat} {dst : Loc16} {v : Word} (h : Moves s t) (hw : wr16 len dst v t = .ok u) :
    Moves s u := by
  obtain ⟨w, -, rfl⟩ | ⟨m, p, p', -, -, -, rfl⟩ := wr16_eq_ok hw
  · exact h.setReg16 w v
  · exact (h.putByte p _).putByte p' _

theorem Moves.writeByte {u : State} {sp : Space} {a : Word} {b : Byte} (h : Moves s t)
    (hw : t.writeByte sp a b = .ok u) : Moves s u := by
  obtain ⟨p, -, rfl⟩ := writeByte_eq_ok.mp hw
  exact h.putByte p b

theorem Moves.writeWord {u : State} {sp : Space} {a v : Word} (h : Moves s t) (hw : t.writeWord sp a v = .ok u) :
    Moves s u := by
  obtain ⟨p, p', -, -, rfl⟩ := writeWord_eq_ok.mp hw
  exact (h.putByte p _).putByte p' _

theorem Moves.iterationEnd (h : Moves s t) (n : Nat) (again : Bool) : Moves s (iterationEnd n again t) := by
  cases again
  · exact h.advance n
  · exact h

theorem not_next_division (c : DivisionCause) (s t : State) : divisionTrap c s ≠ .next t := raise_ne_next _ _ _

/-! ### The shared operations -/

theorem ld8_moves {len : Nat} {dst : Loc8} {src : Src8} (h : ld8 len dst src s = .next t) : Moves s t := by
  obtain ⟨v, -, h⟩ := settle_eq_next.mp h
  obtain ⟨u, hu, h⟩ := settle_eq_next.mp h
  cases h
  exact (Moves.refl.wr8 hu).advance len

theorem exchangeA_moves {len : Nat} {src : Loc8} (h : exchangeA len src s = .next t) : Moves s t := by
  obtain ⟨v, -, h⟩ := settle_eq_next.mp h
  obtain ⟨u, hu, h⟩ := settle_eq_next.mp h
  cases h
  exact ((Moves.refl.wr8 hu).setA v).advance len

theorem ldUserLoad_moves {len : Nat} {k : Kind} {m : MemOperand} (h : ldUserLoad len k m s = .next t) :
    Moves s t := by
  have h := (privCheck_eq_next.mp h).2
  split at h
  · cases h
    exact (((Moves.refl.setA _).drawn).putFlags _).advance len
  · split at h
    · cases h
      exact ((Moves.refl.setA _).putFlags _).advance len
    · cases h

theorem ldUserStore_moves {len : Nat} {k : Kind} {m : MemOperand} (h : ldUserStore len k m s = .next t) :
    Moves s t := by
  have h := (privCheck_eq_next.mp h).2
  split at h
  · cases h
    exact (Moves.refl.putFlags _).advance len
  · split at h
    · cases h
      exact ((Moves.refl.putByte _ _).putFlags _).advance len
    · cases h

theorem execExHL_moves (h : execExHL s = .next t) : Moves s t := by
  cases h
  exact (Moves.refl.setHL _).advance 2

theorem exchangeHL_moves {len : Nat} {w : Reg16} (h : exchangeHL len w s = .next t) : Moves s t := by
  cases h
  exact ((Moves.refl.setHL _).setReg16 w _).advance len

theorem execExAfAf_moves (h : execExAfAf s = .next t) : Moves s t := by
  cases h
  exact (Moves.refl.advance 1).swapAF _

theorem execExx_moves (h : execExx s = .next t) : Moves s t := by
  cases h
  exact (Moves.refl.advance 1).swapRF _

theorem exchangeTop_moves {len : Nat} {w : Reg16} (h : exchangeTop len w s = .next t) : Moves s t := by
  obtain ⟨lo, -, h⟩ := settle_eq_next.mp h
  obtain ⟨hi, -, h⟩ := settle_eq_next.mp h
  obtain ⟨u, hu, h⟩ := settle_eq_next.mp h
  obtain ⟨v, hv, h⟩ := settle_eq_next.mp h
  cases h
  exact (((Moves.refl.writeByte hu).writeByte hv).setReg16 w _).advance len

theorem lda_moves {len : Nat} {w : Reg16} {m : MemOperand} (h : lda len w m s = .next t) : Moves s t := by
  cases h
  exact (Moves.refl.setReg16 w _).advance len

theorem ldw_moves {len : Nat} {dst : Loc16} {nn : Word} (h : ldw len dst nn s = .next t) : Moves s t := by
  obtain ⟨u, hu, h⟩ := settle_eq_next.mp h
  cases h
  exact (Moves.refl.wr16 hu).advance len

theorem blockLoad_moves {d : Dir} {rep : Bool} (h : blockLoad d rep s = .next t) : Moves s t := by
  obtain ⟨v, -, h⟩ := settle_eq_next.mp h
  obtain ⟨u, hu, h⟩ := settle_eq_next.mp h
  cases h
  exact Moves.iterationEnd (((((Moves.refl.writeByte hu).setDE _).setHL _).setBC _).putFlags _) 2 _

theorem blockCompare_moves {d : Dir} {rep : Bool} (h : blockCompare d rep s = .next t) : Moves s t := by
  obtain ⟨v, -, h⟩ := settle_eq_next.mp h
  cases h
  exact Moves.iterationEnd (((Moves.refl.setHL _).setBC _).putFlags _) 2 _

theorem adcA_moves {len : Nat} {src : Src8} (h : adcA len src s = .next t) : Moves s t := by
  obtain ⟨v, -, h⟩ := settle_eq_next.mp h
  cases h
  exact ((Moves.refl.setA _).putFlags _).advance len

theorem addA_moves {len : Nat} {src : Src8} (h : addA len src s = .next t) : Moves s t := by
  obtain ⟨v, -, h⟩ := settle_eq_next.mp h
  cases h
  exact ((Moves.refl.setA _).putFlags _).advance len

theorem andA_moves {len : Nat} {src : Src8} (h : andA len src s = .next t) : Moves s t := by
  obtain ⟨v, -, h⟩ := settle_eq_next.mp h
  cases h
  exact ((Moves.refl.setA _).putFlags _).advance len

theorem cpA_moves {len : Nat} {src : Src8} (h : cpA len src s = .next t) : Moves s t := by
  obtain ⟨v, -, h⟩ := settle_eq_next.mp h
  cases h
  exact (Moves.refl.putFlags _).advance len

theorem complementA_moves {len : Nat} (h : complementA len s = .next t) : Moves s t := by
  cases h
  exact ((Moves.refl.setA _).putFlags _).advance len

theorem decimalAdjust_moves {len : Nat} (h : decimalAdjust len s = .next t) : Moves s t := by
  unfold decimalAdjust at h
  split at h
  · cases h
  · cases h
    exact ((Moves.refl.setA _).putFlags _).advance len

theorem dec8_moves {len : Nat} {dst : Loc8} (h : dec8 len dst s = .next t) : Moves s t := by
  obtain ⟨v, -, h⟩ := settle_eq_next.mp h
  obtain ⟨u, hu, h⟩ := settle_eq_next.mp h
  cases h
  exact ((Moves.refl.wr8 hu).putFlags _).advance len

theorem inc8_moves {len : Nat} {dst : Loc8} (h : inc8 len dst s = .next t) : Moves s t := by
  obtain ⟨v, -, h⟩ := settle_eq_next.mp h
  obtain ⟨u, hu, h⟩ := settle_eq_next.mp h
  cases h
  exact ((Moves.refl.wr8 hu).putFlags _).advance len

theorem div8_moves {len : Nat} {src : Src8} (h : div8 len src s = .next t) : Moves s t := by
  obtain ⟨v, -, h⟩ := settle_eq_next.mp h
  split at h
  · exact absurd h (not_next_division _ _ _)
  · dsimp only at h
    split at h
    · exact absurd h (not_next_division _ _ _)
    · cases h
      exact (((Moves.refl.setA _).setReg8 _ _).putFlags _).advance len

theorem divu8_moves {len : Nat} {src : Src8} (h : divu8 len src s = .next t) : Moves s t := by
  obtain ⟨v, -, h⟩ := settle_eq_next.mp h
  split at h
  · exact absurd h (not_next_division _ _ _)
  · dsimp only at h
    split at h
    · exact absurd h (not_next_division _ _ _)
    · cases h
      exact (((Moves.refl.setA _).setReg8 _ _).putFlags _).advance len

theorem extendA_moves {len : Nat} (h : extendA len s = .next t) : Moves s t := by
  cases h
  exact (Moves.refl.setHL _).advance len

theorem adcWord_moves {len : Nat} {d w : Reg16} (h : adcWord len d w s = .next t) : Moves s t := by
  cases h
  exact ((Moves.refl.setReg16 _ _).putFlags _).advance len

theorem addWord_moves {len : Nat} {d w : Reg16} (h : addWord len d w s = .next t) : Moves s t := by
  cases h
  exact ((Moves.refl.setReg16 _ _).putFlags _).advance len

theorem addAccumulator_moves {len : Nat} {d : Reg16} (h : addAccumulator len d s = .next t) : Moves s t := by
  cases h
  exact ((Moves.refl.setReg16 _ _).putFlags _).advance len

theorem addw_moves {len : Nat} {src : Src16} (h : addw len src s = .next t) : Moves s t := by
  obtain ⟨v, -, h⟩ := settle_eq_next.mp h
  cases h
  exact ((Moves.refl.setHL _).putFlags _).advance len

theorem cpw_moves {len : Nat} {src : Src16} (h : cpw len src s = .next t) : Moves s t := by
  obtain ⟨v, -, h⟩ := settle_eq_next.mp h
  cases h
  exact (Moves.refl.putFlags _).advance len

theorem decw_moves {len : Nat} {dst : Loc16} (h : decw len dst s = .next t) : Moves s t := by
  obtain ⟨v, -, h⟩ := settle_eq_next.mp h
  obtain ⟨u, hu, h⟩ := settle_eq_next.mp h
  cases h
  exact (Moves.refl.wr16 hu).advance len

theorem incw_moves {len : Nat} {dst : Loc16} (h : incw len dst s = .next t) : Moves s t := by
  obtain ⟨v, -, h⟩ := settle_eq_next.mp h
  obtain ⟨u, hu, h⟩ := settle_eq_next.mp h
  cases h
  exact (Moves.refl.wr16 hu).advance len

theorem divw_moves {len : Nat} {src : Src16} (h : divw len src s = .next t) : Moves s t := by
  obtain ⟨v, -, h⟩ := settle_eq_next.mp h
  split at h
  · exact absurd h (not_next_division _ _ _)
  · dsimp only at h
    split at h
    · exact absurd h (not_next_division _ _ _)
    · cases h
      exact (((Moves.refl.setHL _).setDE _).putFlags _).advance len

theorem divuw_moves {len : Nat} {src : Src16} (h : divuw len src s = .next t) : Moves s t := by
  obtain ⟨v, -, h⟩ := settle_eq_next.mp h
  split at h
  · exact absurd h (not_next_division _ _ _)
  · dsimp only at h
    split at h
    · exact absurd h (not_next_division _ _ _)
    · cases h
      exact (((Moves.refl.setHL _).setDE _).putFlags _).advance len

theorem extendHL_moves {len : Nat} (h : extendHL len s = .next t) : Moves s t := by
  cases h
  exact (Moves.refl.setDE _).advance len

theorem bitTest_moves {len : Nat} {b : BitVec 3} {dst : Loc8} (h : bitTest len b dst s = .next t) : Moves s t := by
  obtain ⟨v, -, h⟩ := settle_eq_next.mp h
  cases h
  exact (Moves.refl.putFlags _).advance len

theorem call_moves {len : Nat} {c : Bool} {m : MemOperand} (h : call len c m s = .next t) : Moves s t := by
  unfold call callTaken at h
  split at h
  · obtain ⟨u, hu, h⟩ := settle_eq_next.mp h
    obtain ⟨v, hv, rfl⟩ := push16_eq_ok.mp hu
    split at h
    · exact absurd h (raise_ne_next _ _ _)
    · cases h
      exact ((Moves.refl.writeWord hv).setSP _).jump _
  · cases h
    exact Moves.refl.advance len

theorem execCcf_moves (h : execCcf s = .next t) : Moves s t := by
  cases h
  exact (Moves.refl.putFlags _).advance 1

theorem jump_moves {len : Nat} {c : Bool} {m : MemOperand} (h : jump len c m s = .next t) : Moves s t := by
  cases c <;> cases h <;> exact Moves.refl.jump _

theorem jumpShort_moves {len : Nat} {c : Bool} {d : Byte} (h : jumpShort len c d s = .next t) : Moves s t := by
  cases c <;> cases h <;> exact Moves.refl.jump _

theorem decrementJump_moves {len : Nat} {d : Byte} (h : decrementJump len d s = .next t) : Moves s t := by
  cases h
  split
  · exact (Moves.refl.setReg8 _ _).jump _
  · exact (Moves.refl.setReg8 _ _).advance len

theorem inputC_moves {len : Nat} {dst : Loc8} (h : inputC len dst s = .next t) : Moves s t := by
  obtain ⟨hio, h⟩ := ioPrivCheck_eq_next.mp h
  obtain ⟨u, hu, h⟩ := settle_eq_next.mp h
  cases h
  exact (((Moves.refl.ioDone hio _ _).wr8 hu).putFlags _).advance len

theorem inputA_moves {len : Nat} {n : Byte} (h : inputA len n s = .next t) : Moves s t := by
  obtain ⟨hio, h⟩ := ioPrivCheck_eq_next.mp h
  cases h
  exact ((Moves.refl.ioDone hio _ _).setA _).advance len

theorem inputHL_moves {len : Nat} (h : inputHL len s = .next t) : Moves s t := by
  obtain ⟨hio, h⟩ := ioPrivCheck_eq_next.mp h
  dsimp only at h
  split at h
  · cases h
    exact ((Moves.refl.ioDone hio _ _).drawn.setHL _).advance len
  · cases h
    exact ((Moves.refl.ioDone hio _ _).setHL _).advance len

theorem blockInput_moves {d : Dir} {rep : Bool} (h : blockInput d rep s = .next t) : Moves s t := by
  obtain ⟨hio, h⟩ := ioPrivCheck_eq_next.mp h
  obtain ⟨u, hu, h⟩ := settle_eq_next.mp h
  cases h
  exact Moves.iterationEnd (((((Moves.refl.ioDone hio _ _).writeByte hu).setHL _).setReg8 _ _).putFlags _) 2 _

theorem blockInputWord_moves {d : Dir} {rep : Bool} (h : blockInputWord d rep s = .next t) : Moves s t := by
  obtain ⟨hio, h⟩ := ioPrivCheck_eq_next.mp h
  split at h
  · cases h
  · obtain ⟨u, hu, h⟩ := settle_eq_next.mp h
    cases h
    exact Moves.iterationEnd (((((Moves.refl.ioDone hio _ _).writeWord hu).setHL _).setReg8 _ _).putFlags _) 2 _

theorem enableInterrupts_moves {len : Nat} {m : Byte} (h : enableInterrupts len m s = .next t) : Moves s t := by
  obtain ⟨hs, h⟩ := privCheck_eq_next.mp h
  split at h
  · cases h
  · cases h
    exact (Moves.refl.advance len).control hs rfl

theorem disableInterrupts_moves {len : Nat} {m : Byte} (h : disableInterrupts len m s = .next t) : Moves s t := by
  obtain ⟨hs, h⟩ := privCheck_eq_next.mp h
  split at h
  · cases h
  · cases h
    exact (Moves.refl.advance len).control hs rfl

theorem haltCpu_moves {len : Nat} (h : haltCpu len s = .next t) : Moves s t := by
  obtain ⟨hs, h⟩ := privCheck_eq_next.mp h
  split at h
  · exact absurd h (raise_ne_next _ _ _)
  · cases h
    exact (Moves.refl.advance len).control hs rfl

theorem setInterruptMode_moves {len : Nat} {p : BitVec 2} (h : setInterruptMode len p s = .next t) : Moves s t := by
  obtain ⟨hs, h⟩ := privCheck_eq_next.mp h
  cases h
  exact (Moves.refl.advance len).control hs rfl

theorem loadI_moves {len : Nat} (h : loadI len s = .next t) : Moves s t := by
  obtain ⟨hs, h⟩ := privCheck_eq_next.mp h
  cases h
  exact (Moves.refl.advance len).control hs rfl

theorem loadR_moves {len : Nat} (h : loadR len s = .next t) : Moves s t := by
  obtain ⟨hs, h⟩ := privCheck_eq_next.mp h
  cases h
  exact (Moves.refl.advance len).control hs rfl

theorem readSpecial_moves {len : Nat} {v : Byte} (h : readSpecial len v s = .next t) : Moves s t := by
  obtain ⟨hs, h⟩ := privCheck_eq_next.mp h
  cases h
  exact ((Moves.refl.setA v).putFlags _).advance len

theorem writeControl_same {g : ControlReg} {v : Word} {u : State} (h : writeControl g v t = some u) :
    SameButControl t u := by
  cases g <;> cases h <;> rfl

theorem loadFromControl_moves {len : Nat} {w : Reg16} (h : loadFromControl len w s = .next t) : Moves s t := by
  obtain ⟨hs, h⟩ := privCheck_eq_next.mp h
  split at h
  · cases h
  · cases h
    exact (Moves.refl.drawn.setReg16 w _).advance len

theorem loadToControl_moves {len : Nat} {w : Reg16} (h : loadToControl len w s = .next t) : Moves s t := by
  obtain ⟨hs, h⟩ := privCheck_eq_next.mp h
  split at h
  · cases h
  · split at h
    · cases h
    · cases h
      exact (Moves.refl.advance len).control hs (writeControl_same ‹_›)

theorem loadFromUsp_moves {len : Nat} {w : Reg16} (h : loadFromUsp len w s = .next t) : Moves s t := by
  obtain ⟨hs, h⟩ := privCheck_eq_next.mp h
  cases h
  exact (Moves.refl.setReg16 w _).advance len

theorem loadToUsp_moves {len : Nat} {w : Reg16} (h : loadToUsp len w s = .next t) : Moves s t := by
  obtain ⟨hs, h⟩ := privCheck_eq_next.mp h
  cases h
  exact (Moves.refl.advance len).control hs rfl

/-! ### Every instruction, and the step -/

theorem exec_moves {i : Instr} (h : exec i s = .next t) : Moves s t := by
  cases i with
  | ldReg r r2 => exact ld8_moves (show ld8 1 (.reg r) (.loc (.reg r2)) s = .next t from h)
  | ldGRx xy g half => exact ld8_moves (show ld8 2 (.reg g) (.loc (.rx xy half)) s = .next t from h)
  | ldRxRx xy half half2 => exact ld8_moves (show ld8 2 (.rx xy half) (.loc (.rx xy half2)) s = .next t from h)
  | ldRxG xy half g => exact ld8_moves (show ld8 2 (.rx xy half) (.loc (.reg g)) s = .next t from h)
  | ldRHl r => exact ld8_moves (show ld8 1 (.reg r) (.loc (.mem (.ir .hl))) s = .next t from h)
  | ldRSx xy r d => exact ld8_moves (show ld8 3 (.reg r) (.loc (.mem (.sx xy d))) s = .next t from h)
  | ldHlR r => exact ld8_moves (show ld8 1 (.mem (.ir .hl)) (.loc (.reg r)) s = .next t from h)
  | ldSxR xy r d => exact ld8_moves (show ld8 3 (.mem (.sx xy d)) (.loc (.reg r)) s = .next t from h)
  | ldRN r n => exact ld8_moves (show ld8 2 (.reg r) (.imm n) s = .next t from h)
  | ldRxN xy half n => exact ld8_moves (show ld8 3 (.rx xy half) (.imm n) s = .next t from h)
  | ldHlN n => exact ld8_moves (show ld8 2 (.mem (.ir .hl)) (.imm n) s = .next t from h)
  | ldDaN addr n => exact ld8_moves (show ld8 5 (.mem (.da addr)) (.imm n) s = .next t from h)
  | ldXN base dd n => exact ld8_moves (show ld8 5 (.mem (.x base dd)) (.imm n) s = .next t from h)
  | ldSxN xy d n => exact ld8_moves (show ld8 4 (.mem (.sx xy d)) (.imm n) s = .next t from h)
  | ldRaN disp n => exact ld8_moves (show ld8 5 (.mem (.ra disp)) (.imm n) s = .next t from h)
  | ldSrN dd n => exact ld8_moves (show ld8 5 (.mem (.sr dd)) (.imm n) s = .next t from h)
  | ldBxN pair n => exact ld8_moves (show ld8 3 (.mem (.bx pair)) (.imm n) s = .next t from h)
  | ldAIr bd => exact ld8_moves (show ld8 1 (.reg .a) (.loc (.mem (.ir (ptrOfBD bd)))) s = .next t from h)
  | ldADa addr => exact ld8_moves (show ld8 3 (.reg .a) (.loc (.mem (.da addr))) s = .next t from h)
  | ldAX base dd => exact ld8_moves (show ld8 4 (.reg .a) (.loc (.mem (.x base dd))) s = .next t from h)
  | ldARa disp => exact ld8_moves (show ld8 4 (.reg .a) (.loc (.mem (.ra disp))) s = .next t from h)
  | ldASr dd => exact ld8_moves (show ld8 4 (.reg .a) (.loc (.mem (.sr dd))) s = .next t from h)
  | ldABx pair => exact ld8_moves (show ld8 2 (.reg .a) (.loc (.mem (.bx pair))) s = .next t from h)
  | ldIrA bd => exact ld8_moves (show ld8 1 (.mem (.ir (ptrOfBD bd))) (.loc (.reg .a)) s = .next t from h)
  | ldDaA addr => exact ld8_moves (show ld8 3 (.mem (.da addr)) (.loc (.reg .a)) s = .next t from h)
  | ldXA base dd => exact ld8_moves (show ld8 4 (.mem (.x base dd)) (.loc (.reg .a)) s = .next t from h)
  | ldRaA disp => exact ld8_moves (show ld8 4 (.mem (.ra disp)) (.loc (.reg .a)) s = .next t from h)
  | ldSrA dd => exact ld8_moves (show ld8 4 (.mem (.sr dd)) (.loc (.reg .a)) s = .next t from h)
  | ldBxA pair => exact ld8_moves (show ld8 2 (.mem (.bx pair)) (.loc (.reg .a)) s = .next t from h)
  | exAR r => exact exchangeA_moves (show exchangeA 2 (.reg r) s = .next t from h)
  | exARx xy half => exact exchangeA_moves (show exchangeA 3 (.rx xy half) s = .next t from h)
  | exAHl => exact exchangeA_moves (show exchangeA 2 (.mem (.ir .hl)) s = .next t from h)
  | exADa addr => exact exchangeA_moves (show exchangeA 5 (.mem (.da addr)) s = .next t from h)
  | exAX base dd => exact exchangeA_moves (show exchangeA 5 (.mem (.x base dd)) s = .next t from h)
  | exASx xy d => exact exchangeA_moves (show exchangeA 4 (.mem (.sx xy d)) s = .next t from h)
  | exARa disp => exact exchangeA_moves (show exchangeA 5 (.mem (.ra disp)) s = .next t from h)
  | exASr dd => exact exchangeA_moves (show exchangeA 5 (.mem (.sr dd)) s = .next t from h)
  | exABx pair => exact exchangeA_moves (show exchangeA 3 (.mem (.bx pair)) s = .next t from h)
  | exHL => exact execExHL_moves h
  | ldudAHl => exact ldUserLoad_moves (show ldUserLoad 2 .data (.ir .hl) s = .next t from h)
  | ldudASx xy d => exact ldUserLoad_moves (show ldUserLoad 4 .data (.sx xy d) s = .next t from h)
  | ldudHlA => exact ldUserStore_moves (show ldUserStore 2 .data (.ir .hl) s = .next t from h)
  | ldudSxA xy d => exact ldUserStore_moves (show ldUserStore 4 .data (.sx xy d) s = .next t from h)
  | ldupAHl => exact ldUserLoad_moves (show ldUserLoad 2 .program (.ir .hl) s = .next t from h)
  | ldupASx xy d => exact ldUserLoad_moves (show ldUserLoad 4 .program (.sx xy d) s = .next t from h)
  | ldupHlA => exact ldUserStore_moves (show ldUserStore 2 .program (.ir .hl) s = .next t from h)
  | ldupSxA xy d => exact ldUserStore_moves (show ldUserStore 4 .program (.sx xy d) s = .next t from h)
  | exDeHl => exact exchangeHL_moves (show exchangeHL 1 .de s = .next t from h)
  | exXyHl xy => exact exchangeHL_moves (show exchangeHL 2 (reg16OfXY xy) s = .next t from h)
  | exAfAf => exact execExAfAf_moves h
  | exx => exact execExx_moves h
  | exSpHl => exact exchangeTop_moves (show exchangeTop 1 .hl s = .next t from h)
  | exSpXy xy => exact exchangeTop_moves (show exchangeTop 2 (reg16OfXY xy) s = .next t from h)
  | ldaHlX base dd => exact lda_moves (show lda 4 .hl (.x base dd) s = .next t from h)
  | ldaXyX xy base dd => exact lda_moves (show lda 5 (reg16OfXY xy) (.x base dd) s = .next t from h)
  | ldaHlRa disp => exact lda_moves (show lda 4 .hl (.ra disp) s = .next t from h)
  | ldaXyRa xy disp => exact lda_moves (show lda 5 (reg16OfXY xy) (.ra disp) s = .next t from h)
  | ldaHlSr dd => exact lda_moves (show lda 4 .hl (.sr dd) s = .next t from h)
  | ldaXySr xy dd => exact lda_moves (show lda 5 (reg16OfXY xy) (.sr dd) s = .next t from h)
  | ldaHlBx pair => exact lda_moves (show lda 2 .hl (.bx pair) s = .next t from h)
  | ldaXyBx xy pair => exact lda_moves (show lda 3 (reg16OfXY xy) (.bx pair) s = .next t from h)
  | ldwRrN w nn => exact ldw_moves (show ldw 3 (.reg (reg16OfRR w)) nn s = .next t from h)
  | ldwXyN xy nn => exact ldw_moves (show ldw 4 (.reg (reg16OfXY xy)) nn s = .next t from h)
  | ldwHlN nn => exact ldw_moves (show ldw 4 (.mem (.ir .hl)) nn s = .next t from h)
  | ldwDaN addr nn => exact ldw_moves (show ldw 6 (.mem (.da addr)) nn s = .next t from h)
  | ldwRaN disp nn => exact ldw_moves (show ldw 6 (.mem (.ra disp)) nn s = .next t from h)
  | ldi => exact blockLoad_moves (show blockLoad .inc false s = .next t from h)
  | ldd => exact blockLoad_moves (show blockLoad .dec false s = .next t from h)
  | ldir => exact blockLoad_moves (show blockLoad .inc true s = .next t from h)
  | lddr => exact blockLoad_moves (show blockLoad .dec true s = .next t from h)
  | cpi => exact blockCompare_moves (show blockCompare .inc false s = .next t from h)
  | cpd => exact blockCompare_moves (show blockCompare .dec false s = .next t from h)
  | cpir => exact blockCompare_moves (show blockCompare .inc true s = .next t from h)
  | cpdr => exact blockCompare_moves (show blockCompare .dec true s = .next t from h)
  | adcAR r => exact adcA_moves (show adcA 1 (.loc (.reg r)) s = .next t from h)
  | adcARx xy half => exact adcA_moves (show adcA 2 (.loc (.rx xy half)) s = .next t from h)
  | adcAN n => exact adcA_moves (show adcA 2 (.imm n) s = .next t from h)
  | adcAHl => exact adcA_moves (show adcA 1 (.loc (.mem (.ir .hl))) s = .next t from h)
  | adcADa addr => exact adcA_moves (show adcA 4 (.loc (.mem (.da addr))) s = .next t from h)
  | adcAX base dd => exact adcA_moves (show adcA 4 (.loc (.mem (.x base dd))) s = .next t from h)
  | adcASx xy d => exact adcA_moves (show adcA 3 (.loc (.mem (.sx xy d))) s = .next t from h)
  | adcARa disp => exact adcA_moves (show adcA 4 (.loc (.mem (.ra disp))) s = .next t from h)
  | adcASr dd => exact adcA_moves (show adcA 4 (.loc (.mem (.sr dd))) s = .next t from h)
  | adcABx pair => exact adcA_moves (show adcA 2 (.loc (.mem (.bx pair))) s = .next t from h)
  | addAR r => exact addA_moves (show addA 1 (.loc (.reg r)) s = .next t from h)
  | addARx xy half => exact addA_moves (show addA 2 (.loc (.rx xy half)) s = .next t from h)
  | addAN n => exact addA_moves (show addA 2 (.imm n) s = .next t from h)
  | addAHl => exact addA_moves (show addA 1 (.loc (.mem (.ir .hl))) s = .next t from h)
  | addADa addr => exact addA_moves (show addA 4 (.loc (.mem (.da addr))) s = .next t from h)
  | addAX base dd => exact addA_moves (show addA 4 (.loc (.mem (.x base dd))) s = .next t from h)
  | addASx xy d => exact addA_moves (show addA 3 (.loc (.mem (.sx xy d))) s = .next t from h)
  | addARa disp => exact addA_moves (show addA 4 (.loc (.mem (.ra disp))) s = .next t from h)
  | addASr dd => exact addA_moves (show addA 4 (.loc (.mem (.sr dd))) s = .next t from h)
  | addABx pair => exact addA_moves (show addA 2 (.loc (.mem (.bx pair))) s = .next t from h)
  | andAR r => exact andA_moves (show andA 1 (.loc (.reg r)) s = .next t from h)
  | andARx xy half => exact andA_moves (show andA 2 (.loc (.rx xy half)) s = .next t from h)
  | andAN n => exact andA_moves (show andA 2 (.imm n) s = .next t from h)
  | andAHl => exact andA_moves (show andA 1 (.loc (.mem (.ir .hl))) s = .next t from h)
  | andADa addr => exact andA_moves (show andA 4 (.loc (.mem (.da addr))) s = .next t from h)
  | andAX base dd => exact andA_moves (show andA 4 (.loc (.mem (.x base dd))) s = .next t from h)
  | andASx xy d => exact andA_moves (show andA 3 (.loc (.mem (.sx xy d))) s = .next t from h)
  | andARa disp => exact andA_moves (show andA 4 (.loc (.mem (.ra disp))) s = .next t from h)
  | andASr dd => exact andA_moves (show andA 4 (.loc (.mem (.sr dd))) s = .next t from h)
  | andABx pair => exact andA_moves (show andA 2 (.loc (.mem (.bx pair))) s = .next t from h)
  | cpAR r => exact cpA_moves (show cpA 1 (.loc (.reg r)) s = .next t from h)
  | cpARx xy half => exact cpA_moves (show cpA 2 (.loc (.rx xy half)) s = .next t from h)
  | cpAN n => exact cpA_moves (show cpA 2 (.imm n) s = .next t from h)
  | cpAHl => exact cpA_moves (show cpA 1 (.loc (.mem (.ir .hl))) s = .next t from h)
  | cpADa addr => exact cpA_moves (show cpA 4 (.loc (.mem (.da addr))) s = .next t from h)
  | cpAX base dd => exact cpA_moves (show cpA 4 (.loc (.mem (.x base dd))) s = .next t from h)
  | cpASx xy d => exact cpA_moves (show cpA 3 (.loc (.mem (.sx xy d))) s = .next t from h)
  | cpARa disp => exact cpA_moves (show cpA 4 (.loc (.mem (.ra disp))) s = .next t from h)
  | cpASr dd => exact cpA_moves (show cpA 4 (.loc (.mem (.sr dd))) s = .next t from h)
  | cpABx pair => exact cpA_moves (show cpA 2 (.loc (.mem (.bx pair))) s = .next t from h)
  | cpl => exact complementA_moves (show complementA 1 s = .next t from h)
  | daa => exact decimalAdjust_moves (show decimalAdjust 1 s = .next t from h)
  | decR r => exact dec8_moves (show dec8 1 (.reg r) s = .next t from h)
  | decRx xy half => exact dec8_moves (show dec8 2 (.rx xy half) s = .next t from h)
  | decHl => exact dec8_moves (show dec8 1 (.mem (.ir .hl)) s = .next t from h)
  | decDa addr => exact dec8_moves (show dec8 4 (.mem (.da addr)) s = .next t from h)
  | decX base dd => exact dec8_moves (show dec8 4 (.mem (.x base dd)) s = .next t from h)
  | decSx xy d => exact dec8_moves (show dec8 3 (.mem (.sx xy d)) s = .next t from h)
  | decRa disp => exact dec8_moves (show dec8 4 (.mem (.ra disp)) s = .next t from h)
  | decSr dd => exact dec8_moves (show dec8 4 (.mem (.sr dd)) s = .next t from h)
  | decBx pair => exact dec8_moves (show dec8 2 (.mem (.bx pair)) s = .next t from h)
  | divR r => exact div8_moves (show div8 2 (.loc (.reg r)) s = .next t from h)
  | divRx xy half => exact div8_moves (show div8 3 (.loc (.rx xy half)) s = .next t from h)
  | divN n => exact div8_moves (show div8 4 (.imm n) s = .next t from h)
  | divHl => exact div8_moves (show div8 2 (.loc (.mem (.ir .hl))) s = .next t from h)
  | divDa addr => exact div8_moves (show div8 5 (.loc (.mem (.da addr))) s = .next t from h)
  | divX base dd => exact div8_moves (show div8 5 (.loc (.mem (.x base dd))) s = .next t from h)
  | divSx xy d => exact div8_moves (show div8 4 (.loc (.mem (.sx xy d))) s = .next t from h)
  | divRa disp => exact div8_moves (show div8 5 (.loc (.mem (.ra disp))) s = .next t from h)
  | divSr dd => exact div8_moves (show div8 5 (.loc (.mem (.sr dd))) s = .next t from h)
  | divBx pair => exact div8_moves (show div8 3 (.loc (.mem (.bx pair))) s = .next t from h)
  | divuR r => exact divu8_moves (show divu8 2 (.loc (.reg r)) s = .next t from h)
  | divuRx xy half => exact divu8_moves (show divu8 3 (.loc (.rx xy half)) s = .next t from h)
  | divuN n => exact divu8_moves (show divu8 4 (.imm n) s = .next t from h)
  | divuHl => exact divu8_moves (show divu8 2 (.loc (.mem (.ir .hl))) s = .next t from h)
  | divuDa addr => exact divu8_moves (show divu8 5 (.loc (.mem (.da addr))) s = .next t from h)
  | divuX base dd => exact divu8_moves (show divu8 5 (.loc (.mem (.x base dd))) s = .next t from h)
  | divuSx xy d => exact divu8_moves (show divu8 4 (.loc (.mem (.sx xy d))) s = .next t from h)
  | divuRa disp => exact divu8_moves (show divu8 5 (.loc (.mem (.ra disp))) s = .next t from h)
  | divuSr dd => exact divu8_moves (show divu8 5 (.loc (.mem (.sr dd))) s = .next t from h)
  | divuBx pair => exact divu8_moves (show divu8 3 (.loc (.mem (.bx pair))) s = .next t from h)
  | extsA => exact extendA_moves (show extendA 2 s = .next t from h)
  | incR r => exact inc8_moves (show inc8 1 (.reg r) s = .next t from h)
  | incRx xy half => exact inc8_moves (show inc8 2 (.rx xy half) s = .next t from h)
  | incHl => exact inc8_moves (show inc8 1 (.mem (.ir .hl)) s = .next t from h)
  | incDa addr => exact inc8_moves (show inc8 4 (.mem (.da addr)) s = .next t from h)
  | incX base dd => exact inc8_moves (show inc8 4 (.mem (.x base dd)) s = .next t from h)
  | incSx xy d => exact inc8_moves (show inc8 3 (.mem (.sx xy d)) s = .next t from h)
  | incRa disp => exact inc8_moves (show inc8 4 (.mem (.ra disp)) s = .next t from h)
  | incSr dd => exact inc8_moves (show inc8 4 (.mem (.sr dd)) s = .next t from h)
  | incBx pair => exact inc8_moves (show inc8 2 (.mem (.bx pair)) s = .next t from h)
  | adcHlRr w => exact adcWord_moves (show adcWord 2 .hl (reg16OfRR w) s = .next t from h)
  | adcXyRr xy w => exact adcWord_moves (show adcWord 3 (reg16OfXY xy) (reg16OfRRX xy w) s = .next t from h)
  | addHlRr w => exact addWord_moves (show addWord 1 .hl (reg16OfRR w) s = .next t from h)
  | addXyRr xy w => exact addWord_moves (show addWord 2 (reg16OfXY xy) (reg16OfRRX xy w) s = .next t from h)
  | addHlA => exact addAccumulator_moves (show addAccumulator 2 .hl s = .next t from h)
  | addXyA xy => exact addAccumulator_moves (show addAccumulator 3 (reg16OfXY xy) s = .next t from h)
  | addwRr w => exact addw_moves (show addw 2 (.loc (.reg (reg16OfRR w))) s = .next t from h)
  | addwXy xy => exact addw_moves (show addw 3 (.loc (.reg (reg16OfXY xy))) s = .next t from h)
  | addwN nn => exact addw_moves (show addw 5 (.imm nn) s = .next t from h)
  | addwDa addr => exact addw_moves (show addw 5 (.loc (.mem (.da addr))) s = .next t from h)
  | addwX xy dd => exact addw_moves (show addw 5 (.loc (.mem (.x (xxOfXY xy) dd))) s = .next t from h)
  | addwRa disp => exact addw_moves (show addw 5 (.loc (.mem (.ra disp))) s = .next t from h)
  | addwHl => exact addw_moves (show addw 3 (.loc (.mem (.ir .hl))) s = .next t from h)
  | cpwRr w => exact cpw_moves (show cpw 2 (.loc (.reg (reg16OfRR w))) s = .next t from h)
  | cpwXy xy => exact cpw_moves (show cpw 3 (.loc (.reg (reg16OfXY xy))) s = .next t from h)
  | cpwN nn => exact cpw_moves (show cpw 5 (.imm nn) s = .next t from h)
  | cpwDa addr => exact cpw_moves (show cpw 5 (.loc (.mem (.da addr))) s = .next t from h)
  | cpwX xy dd => exact cpw_moves (show cpw 5 (.loc (.mem (.x (xxOfXY xy) dd))) s = .next t from h)
  | cpwRa disp => exact cpw_moves (show cpw 5 (.loc (.mem (.ra disp))) s = .next t from h)
  | cpwHl => exact cpw_moves (show cpw 3 (.loc (.mem (.ir .hl))) s = .next t from h)
  | decwRr w => exact decw_moves (show decw 1 (.reg (reg16OfRR w)) s = .next t from h)
  | decwXy xy => exact decw_moves (show decw 2 (.reg (reg16OfXY xy)) s = .next t from h)
  | decwHl => exact decw_moves (show decw 2 (.mem (.ir .hl)) s = .next t from h)
  | decwDa addr => exact decw_moves (show decw 4 (.mem (.da addr)) s = .next t from h)
  | decwX xy dd => exact decw_moves (show decw 4 (.mem (.x (xxOfXY xy) dd)) s = .next t from h)
  | decwRa disp => exact decw_moves (show decw 4 (.mem (.ra disp)) s = .next t from h)
  | divwRr w => exact divw_moves (show divw 2 (.loc (.reg (reg16OfRR w))) s = .next t from h)
  | divwXy xy => exact divw_moves (show divw 3 (.loc (.reg (reg16OfXY xy))) s = .next t from h)
  | divwN nn => exact divw_moves (show divw 5 (.imm nn) s = .next t from h)
  | divwDa addr => exact divw_moves (show divw 5 (.loc (.mem (.da addr))) s = .next t from h)
  | divwX xy dd => exact divw_moves (show divw 5 (.loc (.mem (.x (xxOfXY xy) dd))) s = .next t from h)
  | divwRa disp => exact divw_moves (show divw 5 (.loc (.mem (.ra disp))) s = .next t from h)
  | divwHl => exact divw_moves (show divw 3 (.loc (.mem (.ir .hl))) s = .next t from h)
  | divuwRr w => exact divuw_moves (show divuw 2 (.loc (.reg (reg16OfRR w))) s = .next t from h)
  | divuwXy xy => exact divuw_moves (show divuw 3 (.loc (.reg (reg16OfXY xy))) s = .next t from h)
  | divuwN nn => exact divuw_moves (show divuw 5 (.imm nn) s = .next t from h)
  | divuwDa addr => exact divuw_moves (show divuw 5 (.loc (.mem (.da addr))) s = .next t from h)
  | divuwX xy dd => exact divuw_moves (show divuw 5 (.loc (.mem (.x (xxOfXY xy) dd))) s = .next t from h)
  | divuwRa disp => exact divuw_moves (show divuw 5 (.loc (.mem (.ra disp))) s = .next t from h)
  | divuwHl => exact divuw_moves (show divuw 3 (.loc (.mem (.ir .hl))) s = .next t from h)
  | extsHl => exact extendHL_moves (show extendHL 2 s = .next t from h)
  | incwRr w => exact incw_moves (show incw 1 (.reg (reg16OfRR w)) s = .next t from h)
  | incwXy xy => exact incw_moves (show incw 2 (.reg (reg16OfXY xy)) s = .next t from h)
  | incwHl => exact incw_moves (show incw 2 (.mem (.ir .hl)) s = .next t from h)
  | incwDa addr => exact incw_moves (show incw 4 (.mem (.da addr)) s = .next t from h)
  | incwX xy dd => exact incw_moves (show incw 4 (.mem (.x (xxOfXY xy) dd)) s = .next t from h)
  | incwRa disp => exact incw_moves (show incw 4 (.mem (.ra disp)) s = .next t from h)
  | bitR bit r => exact bitTest_moves (show bitTest 2 bit (.reg r) s = .next t from h)
  | bitHl bit => exact bitTest_moves (show bitTest 2 bit (.mem (.ir .hl)) s = .next t from h)
  | bitSx xy d bit => exact bitTest_moves (show bitTest 4 bit (.mem (.sx xy d)) s = .next t from h)
  | callCcHl cc => exact call_moves (show call 2 (condHolds cc s.f) (.ir .hl) s = .next t from h)
  | callHl => exact call_moves (show call 2 true (.ir .hl) s = .next t from h)
  | callCc cc addr => exact call_moves (show call 3 (condHolds cc s.f) (.da addr) s = .next t from h)
  | callDa addr => exact call_moves (show call 3 true (.da addr) s = .next t from h)
  | callCcRa cc disp => exact call_moves (show call 4 (condHolds cc s.f) (.ra disp) s = .next t from h)
  | callRa disp => exact call_moves (show call 4 true (.ra disp) s = .next t from h)
  | ccf => exact execCcf_moves h
  | djnz disp => exact decrementJump_moves (show decrementJump 2 disp s = .next t from h)
  | jpCcHl cc => exact jump_moves (show jump 2 (condHolds cc s.f) (.ir .hl) s = .next t from h)
  | jpHl => exact jump_moves (show jump 1 true (.ir .hl) s = .next t from h)
  | jpXy xy => exact jump_moves (show jump 2 true (.ir (ptrOfXY xy)) s = .next t from h)
  | jpCc cc addr => exact jump_moves (show jump 3 (condHolds cc s.f) (.da addr) s = .next t from h)
  | jpDa addr => exact jump_moves (show jump 3 true (.da addr) s = .next t from h)
  | jpCcRa cc disp => exact jump_moves (show jump 4 (condHolds cc s.f) (.ra disp) s = .next t from h)
  | jpRa disp => exact jump_moves (show jump 4 true (.ra disp) s = .next t from h)
  | jrCc jcc disp => exact jumpShort_moves (show jumpShort 2 (jrHolds jcc s.f) disp s = .next t from h)
  | jr disp => exact jumpShort_moves (show jumpShort 2 true disp s = .next t from h)
  | jaf disp => exact jumpShort_moves (show jumpShort 3 s.afSel disp s = .next t from h)
  | jar disp => exact jumpShort_moves (show jumpShort 3 s.rfSel disp s = .next t from h)
  | inR r => exact inputC_moves (show inputC 2 (.reg r) s = .next t from h)
  | inRx xy half => exact inputC_moves (show inputC 3 (.rx xy half) s = .next t from h)
  | inDa addr => exact inputC_moves (show inputC 5 (.mem (.da addr)) s = .next t from h)
  | inX base dd => exact inputC_moves (show inputC 5 (.mem (.x base dd)) s = .next t from h)
  | inRa disp => exact inputC_moves (show inputC 5 (.mem (.ra disp)) s = .next t from h)
  | inSr dd => exact inputC_moves (show inputC 5 (.mem (.sr dd)) s = .next t from h)
  | inBx pair => exact inputC_moves (show inputC 3 (.mem (.bx pair)) s = .next t from h)
  | inAN n => exact inputA_moves (show inputA 2 n s = .next t from h)
  | inw => exact inputHL_moves (show inputHL 2 s = .next t from h)
  | ini => exact blockInput_moves (show blockInput .inc false s = .next t from h)
  | iniw => exact blockInputWord_moves (show blockInputWord .inc false s = .next t from h)
  | ind => exact blockInput_moves (show blockInput .dec false s = .next t from h)
  | indw => exact blockInputWord_moves (show blockInputWord .dec false s = .next t from h)
  | inir => exact blockInput_moves (show blockInput .inc true s = .next t from h)
  | inirw => exact blockInputWord_moves (show blockInputWord .inc true s = .next t from h)
  | indr => exact blockInput_moves (show blockInput .dec true s = .next t from h)
  | indrw => exact blockInputWord_moves (show blockInputWord .dec true s = .next t from h)
  | di => exact disableInterrupts_moves (show disableInterrupts 1 0x7F s = .next t from h)
  | diMask mask => exact disableInterrupts_moves (show disableInterrupts 3 mask s = .next t from h)
  | ei => exact enableInterrupts_moves (show enableInterrupts 1 0x7F s = .next t from h)
  | eiMask mask => exact enableInterrupts_moves (show enableInterrupts 3 mask s = .next t from h)
  | halt => exact haltCpu_moves (show haltCpu 1 s = .next t from h)
  | im0 => exact setInterruptMode_moves (show setInterruptMode 2 0 s = .next t from h)
  | im1 => exact setInterruptMode_moves (show setInterruptMode 2 1 s = .next t from h)
  | im2 => exact setInterruptMode_moves (show setInterruptMode 2 2 s = .next t from h)
  | im3 => exact setInterruptMode_moves (show setInterruptMode 2 3 s = .next t from h)
  | ldIA => exact loadI_moves (show loadI 2 s = .next t from h)
  | ldRfA => exact loadR_moves (show loadR 2 s = .next t from h)
  | ldAI => exact readSpecial_moves (show readSpecial 2 s.i s = .next t from h)
  | ldARf => exact readSpecial_moves (show readSpecial 2 s.r s = .next t from h)
  | ldctlHlC => exact loadFromControl_moves (show loadFromControl 2 .hl s = .next t from h)
  | ldctlXyC xy => exact loadFromControl_moves (show loadFromControl 3 (reg16OfXY xy) s = .next t from h)
  | ldctlCHl => exact loadToControl_moves (show loadToControl 2 .hl s = .next t from h)
  | ldctlCXy xy => exact loadToControl_moves (show loadToControl 3 (reg16OfXY xy) s = .next t from h)
  | ldctlHlUsp => exact loadFromUsp_moves (show loadFromUsp 2 .hl s = .next t from h)
  | ldctlXyUsp xy => exact loadFromUsp_moves (show loadFromUsp 3 (reg16OfXY xy) s = .next t from h)
  | ldctlUspHl => exact loadToUsp_moves (show loadToUsp 2 .hl s = .next t from h)
  | ldctlUspXy xy => exact loadToUsp_moves (show loadToUsp 3 (reg16OfXY xy) s = .next t from h)

/-- What a step can do: a halted machine stays as it is; otherwise the next state is reached by the named updates. -/
theorem step_moves (h : step s = .next t) : Moves s t := by
  obtain ⟨-, rfl⟩ | ⟨-, -, i, -, h⟩ := step_eq_next.mp h
  · exact .refl
  · exact exec_moves h

end Sys2Proof.Machine
end

