-- ==== Sys2Proof/Laws/PerInstr.lean ====
section
/-! SUPPORT. A lemma for each instruction: it is 1 to 6 bytes long (30_encoding.md R90), and a beginning of its encoding
that leaves a byte out decides nothing, so the fetch goes on to its last byte (R116). -/

namespace Sys2Proof.Laws

/-- The encoding of a well-formed instruction has 1 to 6 bytes, and none of its proper beginnings is decided. -/
def Prefix.Statement (i : Instr) : Prop :=
  i.wellFormed = true →
    1 ≤ (encode i).length ∧ (encode i).length ≤ 6
      ∧ ∀ k : Nat, k < (encode i).length → decode ((encode i).take k) = .short

namespace Prefix

/-- `n` bytes, whose beginnings are looked at one by one. -/
theorem of_bytes {i : Instr} (n : Nat) (hn : (encode i).length = n) (h1 : 1 ≤ n) (h6 : n ≤ 6)
    (h : ∀ k : Nat, k < n → decode ((encode i).take k) = .short) : Statement i :=
  fun _ => hn ▸ ⟨h1, h6, h⟩

theorem ldReg (r : R8) (r2 : R8) : Statement (.ldReg r r2) :=
  of_bytes 1 rfl (by decide) (by decide) fun k hk =>
    match k, hk with | 0, _ => rfl

theorem ldGRx (xy : XY) (g : R8) (half : Half) : Statement (.ldGRx xy g half) := by
  cases xy <;> exact of_bytes 2 rfl (by decide) (by decide) fun k hk =>
    match k, hk with | 0, _ => rfl | 1, _ => rfl

theorem ldRxRx (xy : XY) (half : Half) (half2 : Half) : Statement (.ldRxRx xy half half2) := by
  cases xy <;> exact of_bytes 2 rfl (by decide) (by decide) fun k hk =>
    match k, hk with | 0, _ => rfl | 1, _ => rfl

theorem ldRxG (xy : XY) (half : Half) (g : R8) : Statement (.ldRxG xy half g) := by
  cases xy <;> exact of_bytes 2 rfl (by decide) (by decide) fun k hk =>
    match k, hk with | 0, _ => rfl | 1, _ => rfl

theorem ldRHl (r : R8) : Statement (.ldRHl r) :=
  of_bytes 1 rfl (by decide) (by decide) fun k hk =>
    match k, hk with | 0, _ => rfl

theorem ldRSx (xy : XY) (r : R8) (d : Byte) : Statement (.ldRSx xy r d) := by
  cases xy <;> cases r <;> exact of_bytes 3 rfl (by decide) (by decide) fun k hk =>
    match k, hk with | 0, _ => rfl | 1, _ => rfl | 2, _ => rfl

theorem ldHlR (r : R8) : Statement (.ldHlR r) :=
  of_bytes 1 rfl (by decide) (by decide) fun k hk =>
    match k, hk with | 0, _ => rfl

theorem ldSxR (xy : XY) (r : R8) (d : Byte) : Statement (.ldSxR xy r d) := by
  cases xy <;> cases r <;> exact of_bytes 3 rfl (by decide) (by decide) fun k hk =>
    match k, hk with | 0, _ => rfl | 1, _ => rfl | 2, _ => rfl

theorem ldRN (r : R8) (n : Byte) : Statement (.ldRN r n) := by
  cases r <;> exact of_bytes 2 rfl (by decide) (by decide) fun k hk =>
    match k, hk with | 0, _ => rfl | 1, _ => rfl

theorem ldRxN (xy : XY) (half : Half) (n : Byte) : Statement (.ldRxN xy half n) := by
  cases xy <;> cases half <;> exact of_bytes 3 rfl (by decide) (by decide) fun k hk =>
    match k, hk with | 0, _ => rfl | 1, _ => rfl | 2, _ => rfl

theorem ldHlN (n : Byte) : Statement (.ldHlN n) :=
  of_bytes 2 rfl (by decide) (by decide) fun k hk =>
    match k, hk with | 0, _ => rfl | 1, _ => rfl

theorem ldDaN (addr : Word) (n : Byte) : Statement (.ldDaN addr n) :=
  of_bytes 5 rfl (by decide) (by decide) fun k hk =>
    match k, hk with | 0, _ => rfl | 1, _ => rfl | 2, _ => rfl | 3, _ => rfl | 4, _ => rfl

theorem ldXN (base : XX) (dd : Word) (n : Byte) : Statement (.ldXN base dd n) := by
  cases base <;> exact of_bytes 5 rfl (by decide) (by decide) fun k hk =>
    match k, hk with | 0, _ => rfl | 1, _ => rfl | 2, _ => rfl | 3, _ => rfl | 4, _ => rfl

theorem ldSxN (xy : XY) (d : Byte) (n : Byte) : Statement (.ldSxN xy d n) := by
  cases xy <;> exact of_bytes 4 rfl (by decide) (by decide) fun k hk =>
    match k, hk with | 0, _ => rfl | 1, _ => rfl | 2, _ => rfl | 3, _ => rfl

theorem ldRaN (disp : Word) (n : Byte) : Statement (.ldRaN disp n) :=
  of_bytes 5 rfl (by decide) (by decide) fun k hk =>
    match k, hk with | 0, _ => rfl | 1, _ => rfl | 2, _ => rfl | 3, _ => rfl | 4, _ => rfl

theorem ldSrN (dd : Word) (n : Byte) : Statement (.ldSrN dd n) :=
  of_bytes 5 rfl (by decide) (by decide) fun k hk =>
    match k, hk with | 0, _ => rfl | 1, _ => rfl | 2, _ => rfl | 3, _ => rfl | 4, _ => rfl

theorem ldBxN (pair : BX) (n : Byte) : Statement (.ldBxN pair n) := by
  cases pair <;> exact of_bytes 3 rfl (by decide) (by decide) fun k hk =>
    match k, hk with | 0, _ => rfl | 1, _ => rfl | 2, _ => rfl

theorem ldAIr (bd : BD) : Statement (.ldAIr bd) :=
  of_bytes 1 rfl (by decide) (by decide) fun k hk =>
    match k, hk with | 0, _ => rfl

theorem ldADa (addr : Word) : Statement (.ldADa addr) :=
  of_bytes 3 rfl (by decide) (by decide) fun k hk =>
    match k, hk with | 0, _ => rfl | 1, _ => rfl | 2, _ => rfl

theorem ldAX (base : XX) (dd : Word) : Statement (.ldAX base dd) := by
  cases base <;> exact of_bytes 4 rfl (by decide) (by decide) fun k hk =>
    match k, hk with | 0, _ => rfl | 1, _ => rfl | 2, _ => rfl | 3, _ => rfl

theorem ldARa (disp : Word) : Statement (.ldARa disp) :=
  of_bytes 4 rfl (by decide) (by decide) fun k hk =>
    match k, hk with | 0, _ => rfl | 1, _ => rfl | 2, _ => rfl | 3, _ => rfl

theorem ldASr (dd : Word) : Statement (.ldASr dd) :=
  of_bytes 4 rfl (by decide) (by decide) fun k hk =>
    match k, hk with | 0, _ => rfl | 1, _ => rfl | 2, _ => rfl | 3, _ => rfl

theorem ldABx (pair : BX) : Statement (.ldABx pair) := by
  cases pair <;> exact of_bytes 2 rfl (by decide) (by decide) fun k hk =>
    match k, hk with | 0, _ => rfl | 1, _ => rfl

theorem ldIrA (bd : BD) : Statement (.ldIrA bd) :=
  of_bytes 1 rfl (by decide) (by decide) fun k hk =>
    match k, hk with | 0, _ => rfl

theorem ldDaA (addr : Word) : Statement (.ldDaA addr) :=
  of_bytes 3 rfl (by decide) (by decide) fun k hk =>
    match k, hk with | 0, _ => rfl | 1, _ => rfl | 2, _ => rfl

theorem ldXA (base : XX) (dd : Word) : Statement (.ldXA base dd) := by
  cases base <;> exact of_bytes 4 rfl (by decide) (by decide) fun k hk =>
    match k, hk with | 0, _ => rfl | 1, _ => rfl | 2, _ => rfl | 3, _ => rfl

theorem ldRaA (disp : Word) : Statement (.ldRaA disp) :=
  of_bytes 4 rfl (by decide) (by decide) fun k hk =>
    match k, hk with | 0, _ => rfl | 1, _ => rfl | 2, _ => rfl | 3, _ => rfl

theorem ldSrA (dd : Word) : Statement (.ldSrA dd) :=
  of_bytes 4 rfl (by decide) (by decide) fun k hk =>
    match k, hk with | 0, _ => rfl | 1, _ => rfl | 2, _ => rfl | 3, _ => rfl

theorem ldBxA (pair : BX) : Statement (.ldBxA pair) := by
  cases pair <;> exact of_bytes 2 rfl (by decide) (by decide) fun k hk =>
    match k, hk with | 0, _ => rfl | 1, _ => rfl

theorem exAR (r : R8) : Statement (.exAR r) := by
  cases r <;> exact of_bytes 2 rfl (by decide) (by decide) fun k hk =>
    match k, hk with | 0, _ => rfl | 1, _ => rfl

theorem exARx (xy : XY) (half : Half) : Statement (.exARx xy half) := by
  cases xy <;> cases half <;> exact of_bytes 3 rfl (by decide) (by decide) fun k hk =>
    match k, hk with | 0, _ => rfl | 1, _ => rfl | 2, _ => rfl

theorem exADa (addr : Word) : Statement (.exADa addr) :=
  of_bytes 5 rfl (by decide) (by decide) fun k hk =>
    match k, hk with | 0, _ => rfl | 1, _ => rfl | 2, _ => rfl | 3, _ => rfl | 4, _ => rfl

theorem exAX (base : XX) (dd : Word) : Statement (.exAX base dd) := by
  cases base <;> exact of_bytes 5 rfl (by decide) (by decide) fun k hk =>
    match k, hk with | 0, _ => rfl | 1, _ => rfl | 2, _ => rfl | 3, _ => rfl | 4, _ => rfl

theorem exASx (xy : XY) (d : Byte) : Statement (.exASx xy d) := by
  cases xy <;> exact of_bytes 4 rfl (by decide) (by decide) fun k hk =>
    match k, hk with | 0, _ => rfl | 1, _ => rfl | 2, _ => rfl | 3, _ => rfl

theorem exARa (disp : Word) : Statement (.exARa disp) :=
  of_bytes 5 rfl (by decide) (by decide) fun k hk =>
    match k, hk with | 0, _ => rfl | 1, _ => rfl | 2, _ => rfl | 3, _ => rfl | 4, _ => rfl

theorem exASr (dd : Word) : Statement (.exASr dd) :=
  of_bytes 5 rfl (by decide) (by decide) fun k hk =>
    match k, hk with | 0, _ => rfl | 1, _ => rfl | 2, _ => rfl | 3, _ => rfl | 4, _ => rfl

theorem exABx (pair : BX) : Statement (.exABx pair) := by
  cases pair <;> exact of_bytes 3 rfl (by decide) (by decide) fun k hk =>
    match k, hk with | 0, _ => rfl | 1, _ => rfl | 2, _ => rfl

theorem ldudASx (xy : XY) (d : Byte) : Statement (.ldudASx xy d) := by
  cases xy <;> exact of_bytes 4 rfl (by decide) (by decide) fun k hk =>
    match k, hk with | 0, _ => rfl | 1, _ => rfl | 2, _ => rfl | 3, _ => rfl

theorem ldudSxA (xy : XY) (d : Byte) : Statement (.ldudSxA xy d) := by
  cases xy <;> exact of_bytes 4 rfl (by decide) (by decide) fun k hk =>
    match k, hk with | 0, _ => rfl | 1, _ => rfl | 2, _ => rfl | 3, _ => rfl

theorem ldupASx (xy : XY) (d : Byte) : Statement (.ldupASx xy d) := by
  cases xy <;> exact of_bytes 4 rfl (by decide) (by decide) fun k hk =>
    match k, hk with | 0, _ => rfl | 1, _ => rfl | 2, _ => rfl | 3, _ => rfl

theorem ldupSxA (xy : XY) (d : Byte) : Statement (.ldupSxA xy d) := by
  cases xy <;> exact of_bytes 4 rfl (by decide) (by decide) fun k hk =>
    match k, hk with | 0, _ => rfl | 1, _ => rfl | 2, _ => rfl | 3, _ => rfl

theorem exXyHl (xy : XY) : Statement (.exXyHl xy) := by
  cases xy <;> exact of_bytes 2 rfl (by decide) (by decide) fun k hk =>
    match k, hk with | 0, _ => rfl | 1, _ => rfl

theorem exSpXy (xy : XY) : Statement (.exSpXy xy) := by
  cases xy <;> exact of_bytes 2 rfl (by decide) (by decide) fun k hk =>
    match k, hk with | 0, _ => rfl | 1, _ => rfl

theorem ldaHlX (base : XX) (dd : Word) : Statement (.ldaHlX base dd) := by
  cases base <;> exact of_bytes 4 rfl (by decide) (by decide) fun k hk =>
    match k, hk with | 0, _ => rfl | 1, _ => rfl | 2, _ => rfl | 3, _ => rfl

theorem ldaXyX (xy : XY) (base : XX) (dd : Word) : Statement (.ldaXyX xy base dd) := by
  cases xy <;> cases base <;> exact of_bytes 5 rfl (by decide) (by decide) fun k hk =>
    match k, hk with | 0, _ => rfl | 1, _ => rfl | 2, _ => rfl | 3, _ => rfl | 4, _ => rfl

theorem ldaHlRa (disp : Word) : Statement (.ldaHlRa disp) :=
  of_bytes 4 rfl (by decide) (by decide) fun k hk =>
    match k, hk with | 0, _ => rfl | 1, _ => rfl | 2, _ => rfl | 3, _ => rfl

theorem ldaXyRa (xy : XY) (disp : Word) : Statement (.ldaXyRa xy disp) := by
  cases xy <;> exact of_bytes 5 rfl (by decide) (by decide) fun k hk =>
    match k, hk with | 0, _ => rfl | 1, _ => rfl | 2, _ => rfl | 3, _ => rfl | 4, _ => rfl

theorem ldaHlSr (dd : Word) : Statement (.ldaHlSr dd) :=
  of_bytes 4 rfl (by decide) (by decide) fun k hk =>
    match k, hk with | 0, _ => rfl | 1, _ => rfl | 2, _ => rfl | 3, _ => rfl

theorem ldaXySr (xy : XY) (dd : Word) : Statement (.ldaXySr xy dd) := by
  cases xy <;> exact of_bytes 5 rfl (by decide) (by decide) fun k hk =>
    match k, hk with | 0, _ => rfl | 1, _ => rfl | 2, _ => rfl | 3, _ => rfl | 4, _ => rfl

theorem ldaHlBx (pair : BX) : Statement (.ldaHlBx pair) := by
  cases pair <;> exact of_bytes 2 rfl (by decide) (by decide) fun k hk =>
    match k, hk with | 0, _ => rfl | 1, _ => rfl

theorem ldaXyBx (xy : XY) (pair : BX) : Statement (.ldaXyBx xy pair) := by
  cases xy <;> cases pair <;> exact of_bytes 3 rfl (by decide) (by decide) fun k hk =>
    match k, hk with | 0, _ => rfl | 1, _ => rfl | 2, _ => rfl

theorem ldwRrN (w : RR) (nn : Word) : Statement (.ldwRrN w nn) := by
  cases w <;> exact of_bytes 3 rfl (by decide) (by decide) fun k hk =>
    match k, hk with | 0, _ => rfl | 1, _ => rfl | 2, _ => rfl

theorem ldwXyN (xy : XY) (nn : Word) : Statement (.ldwXyN xy nn) := by
  cases xy <;> exact of_bytes 4 rfl (by decide) (by decide) fun k hk =>
    match k, hk with | 0, _ => rfl | 1, _ => rfl | 2, _ => rfl | 3, _ => rfl

theorem ldwHlN (nn : Word) : Statement (.ldwHlN nn) :=
  of_bytes 4 rfl (by decide) (by decide) fun k hk =>
    match k, hk with | 0, _ => rfl | 1, _ => rfl | 2, _ => rfl | 3, _ => rfl

theorem ldwDaN (addr : Word) (nn : Word) : Statement (.ldwDaN addr nn) :=
  of_bytes 6 rfl (by decide) (by decide) fun k hk =>
    match k, hk with | 0, _ => rfl | 1, _ => rfl | 2, _ => rfl | 3, _ => rfl | 4, _ => rfl | 5, _ => rfl

theorem ldwRaN (disp : Word) (nn : Word) : Statement (.ldwRaN disp nn) :=
  of_bytes 6 rfl (by decide) (by decide) fun k hk =>
    match k, hk with | 0, _ => rfl | 1, _ => rfl | 2, _ => rfl | 3, _ => rfl | 4, _ => rfl | 5, _ => rfl

theorem adcAR (r : R8) : Statement (.adcAR r) :=
  of_bytes 1 rfl (by decide) (by decide) fun k hk =>
    match k, hk with | 0, _ => rfl

theorem adcARx (xy : XY) (half : Half) : Statement (.adcARx xy half) := by
  cases xy <;> exact of_bytes 2 rfl (by decide) (by decide) fun k hk =>
    match k, hk with | 0, _ => rfl | 1, _ => rfl

theorem adcAN (n : Byte) : Statement (.adcAN n) :=
  of_bytes 2 rfl (by decide) (by decide) fun k hk =>
    match k, hk with | 0, _ => rfl | 1, _ => rfl

theorem adcADa (addr : Word) : Statement (.adcADa addr) :=
  of_bytes 4 rfl (by decide) (by decide) fun k hk =>
    match k, hk with | 0, _ => rfl | 1, _ => rfl | 2, _ => rfl | 3, _ => rfl

theorem adcAX (base : XX) (dd : Word) : Statement (.adcAX base dd) := by
  cases base <;> exact of_bytes 4 rfl (by decide) (by decide) fun k hk =>
    match k, hk with | 0, _ => rfl | 1, _ => rfl | 2, _ => rfl | 3, _ => rfl

theorem adcASx (xy : XY) (d : Byte) : Statement (.adcASx xy d) := by
  cases xy <;> exact of_bytes 3 rfl (by decide) (by decide) fun k hk =>
    match k, hk with | 0, _ => rfl | 1, _ => rfl | 2, _ => rfl

theorem adcARa (disp : Word) : Statement (.adcARa disp) :=
  of_bytes 4 rfl (by decide) (by decide) fun k hk =>
    match k, hk with | 0, _ => rfl | 1, _ => rfl | 2, _ => rfl | 3, _ => rfl

theorem adcASr (dd : Word) : Statement (.adcASr dd) :=
  of_bytes 4 rfl (by decide) (by decide) fun k hk =>
    match k, hk with | 0, _ => rfl | 1, _ => rfl | 2, _ => rfl | 3, _ => rfl

theorem adcABx (pair : BX) : Statement (.adcABx pair) := by
  cases pair <;> exact of_bytes 2 rfl (by decide) (by decide) fun k hk =>
    match k, hk with | 0, _ => rfl | 1, _ => rfl

theorem addAR (r : R8) : Statement (.addAR r) :=
  of_bytes 1 rfl (by decide) (by decide) fun k hk =>
    match k, hk with | 0, _ => rfl

theorem addARx (xy : XY) (half : Half) : Statement (.addARx xy half) := by
  cases xy <;> exact of_bytes 2 rfl (by decide) (by decide) fun k hk =>
    match k, hk with | 0, _ => rfl | 1, _ => rfl

theorem addAN (n : Byte) : Statement (.addAN n) :=
  of_bytes 2 rfl (by decide) (by decide) fun k hk =>
    match k, hk with | 0, _ => rfl | 1, _ => rfl

theorem addADa (addr : Word) : Statement (.addADa addr) :=
  of_bytes 4 rfl (by decide) (by decide) fun k hk =>
    match k, hk with | 0, _ => rfl | 1, _ => rfl | 2, _ => rfl | 3, _ => rfl

theorem addAX (base : XX) (dd : Word) : Statement (.addAX base dd) := by
  cases base <;> exact of_bytes 4 rfl (by decide) (by decide) fun k hk =>
    match k, hk with | 0, _ => rfl | 1, _ => rfl | 2, _ => rfl | 3, _ => rfl

theorem addASx (xy : XY) (d : Byte) : Statement (.addASx xy d) := by
  cases xy <;> exact of_bytes 3 rfl (by decide) (by decide) fun k hk =>
    match k, hk with | 0, _ => rfl | 1, _ => rfl | 2, _ => rfl

theorem addARa (disp : Word) : Statement (.addARa disp) :=
  of_bytes 4 rfl (by decide) (by decide) fun k hk =>
    match k, hk with | 0, _ => rfl | 1, _ => rfl | 2, _ => rfl | 3, _ => rfl

theorem addASr (dd : Word) : Statement (.addASr dd) :=
  of_bytes 4 rfl (by decide) (by decide) fun k hk =>
    match k, hk with | 0, _ => rfl | 1, _ => rfl | 2, _ => rfl | 3, _ => rfl

theorem addABx (pair : BX) : Statement (.addABx pair) := by
  cases pair <;> exact of_bytes 2 rfl (by decide) (by decide) fun k hk =>
    match k, hk with | 0, _ => rfl | 1, _ => rfl

theorem andAR (r : R8) : Statement (.andAR r) :=
  of_bytes 1 rfl (by decide) (by decide) fun k hk =>
    match k, hk with | 0, _ => rfl

theorem andARx (xy : XY) (half : Half) : Statement (.andARx xy half) := by
  cases xy <;> exact of_bytes 2 rfl (by decide) (by decide) fun k hk =>
    match k, hk with | 0, _ => rfl | 1, _ => rfl

theorem andAN (n : Byte) : Statement (.andAN n) :=
  of_bytes 2 rfl (by decide) (by decide) fun k hk =>
    match k, hk with | 0, _ => rfl | 1, _ => rfl

theorem andADa (addr : Word) : Statement (.andADa addr) :=
  of_bytes 4 rfl (by decide) (by decide) fun k hk =>
    match k, hk with | 0, _ => rfl | 1, _ => rfl | 2, _ => rfl | 3, _ => rfl

theorem andAX (base : XX) (dd : Word) : Statement (.andAX base dd) := by
  cases base <;> exact of_bytes 4 rfl (by decide) (by decide) fun k hk =>
    match k, hk with | 0, _ => rfl | 1, _ => rfl | 2, _ => rfl | 3, _ => rfl

theorem andASx (xy : XY) (d : Byte) : Statement (.andASx xy d) := by
  cases xy <;> exact of_bytes 3 rfl (by decide) (by decide) fun k hk =>
    match k, hk with | 0, _ => rfl | 1, _ => rfl | 2, _ => rfl

theorem andARa (disp : Word) : Statement (.andARa disp) :=
  of_bytes 4 rfl (by decide) (by decide) fun k hk =>
    match k, hk with | 0, _ => rfl | 1, _ => rfl | 2, _ => rfl | 3, _ => rfl

theorem andASr (dd : Word) : Statement (.andASr dd) :=
  of_bytes 4 rfl (by decide) (by decide) fun k hk =>
    match k, hk with | 0, _ => rfl | 1, _ => rfl | 2, _ => rfl | 3, _ => rfl

theorem andABx (pair : BX) : Statement (.andABx pair) := by
  cases pair <;> exact of_bytes 2 rfl (by decide) (by decide) fun k hk =>
    match k, hk with | 0, _ => rfl | 1, _ => rfl

theorem cpAR (r : R8) : Statement (.cpAR r) :=
  of_bytes 1 rfl (by decide) (by decide) fun k hk =>
    match k, hk with | 0, _ => rfl

theorem cpARx (xy : XY) (half : Half) : Statement (.cpARx xy half) := by
  cases xy <;> exact of_bytes 2 rfl (by decide) (by decide) fun k hk =>
    match k, hk with | 0, _ => rfl | 1, _ => rfl

theorem cpAN (n : Byte) : Statement (.cpAN n) :=
  of_bytes 2 rfl (by decide) (by decide) fun k hk =>
    match k, hk with | 0, _ => rfl | 1, _ => rfl

theorem cpADa (addr : Word) : Statement (.cpADa addr) :=
  of_bytes 4 rfl (by decide) (by decide) fun k hk =>
    match k, hk with | 0, _ => rfl | 1, _ => rfl | 2, _ => rfl | 3, _ => rfl

theorem cpAX (base : XX) (dd : Word) : Statement (.cpAX base dd) := by
  cases base <;> exact of_bytes 4 rfl (by decide) (by decide) fun k hk =>
    match k, hk with | 0, _ => rfl | 1, _ => rfl | 2, _ => rfl | 3, _ => rfl

theorem cpASx (xy : XY) (d : Byte) : Statement (.cpASx xy d) := by
  cases xy <;> exact of_bytes 3 rfl (by decide) (by decide) fun k hk =>
    match k, hk with | 0, _ => rfl | 1, _ => rfl | 2, _ => rfl

theorem cpARa (disp : Word) : Statement (.cpARa disp) :=
  of_bytes 4 rfl (by decide) (by decide) fun k hk =>
    match k, hk with | 0, _ => rfl | 1, _ => rfl | 2, _ => rfl | 3, _ => rfl

theorem cpASr (dd : Word) : Statement (.cpASr dd) :=
  of_bytes 4 rfl (by decide) (by decide) fun k hk =>
    match k, hk with | 0, _ => rfl | 1, _ => rfl | 2, _ => rfl | 3, _ => rfl

theorem cpABx (pair : BX) : Statement (.cpABx pair) := by
  cases pair <;> exact of_bytes 2 rfl (by decide) (by decide) fun k hk =>
    match k, hk with | 0, _ => rfl | 1, _ => rfl

theorem decR (r : R8) : Statement (.decR r) :=
  of_bytes 1 rfl (by decide) (by decide) fun k hk =>
    match k, hk with | 0, _ => rfl

theorem decRx (xy : XY) (half : Half) : Statement (.decRx xy half) := by
  cases xy <;> exact of_bytes 2 rfl (by decide) (by decide) fun k hk =>
    match k, hk with | 0, _ => rfl | 1, _ => rfl

theorem decDa (addr : Word) : Statement (.decDa addr) :=
  of_bytes 4 rfl (by decide) (by decide) fun k hk =>
    match k, hk with | 0, _ => rfl | 1, _ => rfl | 2, _ => rfl | 3, _ => rfl

theorem decX (base : XX) (dd : Word) : Statement (.decX base dd) := by
  cases base <;> exact of_bytes 4 rfl (by decide) (by decide) fun k hk =>
    match k, hk with | 0, _ => rfl | 1, _ => rfl | 2, _ => rfl | 3, _ => rfl

theorem decSx (xy : XY) (d : Byte) : Statement (.decSx xy d) := by
  cases xy <;> exact of_bytes 3 rfl (by decide) (by decide) fun k hk =>
    match k, hk with | 0, _ => rfl | 1, _ => rfl | 2, _ => rfl

theorem decRa (disp : Word) : Statement (.decRa disp) :=
  of_bytes 4 rfl (by decide) (by decide) fun k hk =>
    match k, hk with | 0, _ => rfl | 1, _ => rfl | 2, _ => rfl | 3, _ => rfl

theorem decSr (dd : Word) : Statement (.decSr dd) :=
  of_bytes 4 rfl (by decide) (by decide) fun k hk =>
    match k, hk with | 0, _ => rfl | 1, _ => rfl | 2, _ => rfl | 3, _ => rfl

theorem decBx (pair : BX) : Statement (.decBx pair) := by
  cases pair <;> exact of_bytes 2 rfl (by decide) (by decide) fun k hk =>
    match k, hk with | 0, _ => rfl | 1, _ => rfl

theorem divR (r : R8) : Statement (.divR r) := by
  cases r <;> exact of_bytes 2 rfl (by decide) (by decide) fun k hk =>
    match k, hk with | 0, _ => rfl | 1, _ => rfl

theorem divRx (xy : XY) (half : Half) : Statement (.divRx xy half) := by
  cases xy <;> cases half <;> exact of_bytes 3 rfl (by decide) (by decide) fun k hk =>
    match k, hk with | 0, _ => rfl | 1, _ => rfl | 2, _ => rfl

theorem divN (n : Byte) : Statement (.divN n) :=
  of_bytes 4 rfl (by decide) (by decide) fun k hk =>
    match k, hk with | 0, _ => rfl | 1, _ => rfl | 2, _ => rfl | 3, _ => rfl

theorem divDa (addr : Word) : Statement (.divDa addr) :=
  of_bytes 5 rfl (by decide) (by decide) fun k hk =>
    match k, hk with | 0, _ => rfl | 1, _ => rfl | 2, _ => rfl | 3, _ => rfl | 4, _ => rfl

theorem divX (base : XX) (dd : Word) : Statement (.divX base dd) := by
  cases base <;> exact of_bytes 5 rfl (by decide) (by decide) fun k hk =>
    match k, hk with | 0, _ => rfl | 1, _ => rfl | 2, _ => rfl | 3, _ => rfl | 4, _ => rfl

theorem divSx (xy : XY) (d : Byte) : Statement (.divSx xy d) := by
  cases xy <;> exact of_bytes 4 rfl (by decide) (by decide) fun k hk =>
    match k, hk with | 0, _ => rfl | 1, _ => rfl | 2, _ => rfl | 3, _ => rfl

theorem divRa (disp : Word) : Statement (.divRa disp) :=
  of_bytes 5 rfl (by decide) (by decide) fun k hk =>
    match k, hk with | 0, _ => rfl | 1, _ => rfl | 2, _ => rfl | 3, _ => rfl | 4, _ => rfl

theorem divSr (dd : Word) : Statement (.divSr dd) :=
  of_bytes 5 rfl (by decide) (by decide) fun k hk =>
    match k, hk with | 0, _ => rfl | 1, _ => rfl | 2, _ => rfl | 3, _ => rfl | 4, _ => rfl

theorem divBx (pair : BX) : Statement (.divBx pair) := by
  cases pair <;> exact of_bytes 3 rfl (by decide) (by decide) fun k hk =>
    match k, hk with | 0, _ => rfl | 1, _ => rfl | 2, _ => rfl

theorem divuR (r : R8) : Statement (.divuR r) := by
  cases r <;> exact of_bytes 2 rfl (by decide) (by decide) fun k hk =>
    match k, hk with | 0, _ => rfl | 1, _ => rfl

theorem divuRx (xy : XY) (half : Half) : Statement (.divuRx xy half) := by
  cases xy <;> cases half <;> exact of_bytes 3 rfl (by decide) (by decide) fun k hk =>
    match k, hk with | 0, _ => rfl | 1, _ => rfl | 2, _ => rfl

theorem divuN (n : Byte) : Statement (.divuN n) :=
  of_bytes 4 rfl (by decide) (by decide) fun k hk =>
    match k, hk with | 0, _ => rfl | 1, _ => rfl | 2, _ => rfl | 3, _ => rfl

theorem divuDa (addr : Word) : Statement (.divuDa addr) :=
  of_bytes 5 rfl (by decide) (by decide) fun k hk =>
    match k, hk with | 0, _ => rfl | 1, _ => rfl | 2, _ => rfl | 3, _ => rfl | 4, _ => rfl

theorem divuX (base : XX) (dd : Word) : Statement (.divuX base dd) := by
  cases base <;> exact of_bytes 5 rfl (by decide) (by decide) fun k hk =>
    match k, hk with | 0, _ => rfl | 1, _ => rfl | 2, _ => rfl | 3, _ => rfl | 4, _ => rfl

theorem divuSx (xy : XY) (d : Byte) : Statement (.divuSx xy d) := by
  cases xy <;> exact of_bytes 4 rfl (by decide) (by decide) fun k hk =>
    match k, hk with | 0, _ => rfl | 1, _ => rfl | 2, _ => rfl | 3, _ => rfl

theorem divuRa (disp : Word) : Statement (.divuRa disp) :=
  of_bytes 5 rfl (by decide) (by decide) fun k hk =>
    match k, hk with | 0, _ => rfl | 1, _ => rfl | 2, _ => rfl | 3, _ => rfl | 4, _ => rfl

theorem divuSr (dd : Word) : Statement (.divuSr dd) :=
  of_bytes 5 rfl (by decide) (by decide) fun k hk =>
    match k, hk with | 0, _ => rfl | 1, _ => rfl | 2, _ => rfl | 3, _ => rfl | 4, _ => rfl

theorem divuBx (pair : BX) : Statement (.divuBx pair) := by
  cases pair <;> exact of_bytes 3 rfl (by decide) (by decide) fun k hk =>
    match k, hk with | 0, _ => rfl | 1, _ => rfl | 2, _ => rfl

theorem incR (r : R8) : Statement (.incR r) :=
  of_bytes 1 rfl (by decide) (by decide) fun k hk =>
    match k, hk with | 0, _ => rfl

theorem incRx (xy : XY) (half : Half) : Statement (.incRx xy half) := by
  cases xy <;> exact of_bytes 2 rfl (by decide) (by decide) fun k hk =>
    match k, hk with | 0, _ => rfl | 1, _ => rfl

theorem incDa (addr : Word) : Statement (.incDa addr) :=
  of_bytes 4 rfl (by decide) (by decide) fun k hk =>
    match k, hk with | 0, _ => rfl | 1, _ => rfl | 2, _ => rfl | 3, _ => rfl

theorem incX (base : XX) (dd : Word) : Statement (.incX base dd) := by
  cases base <;> exact of_bytes 4 rfl (by decide) (by decide) fun k hk =>
    match k, hk with | 0, _ => rfl | 1, _ => rfl | 2, _ => rfl | 3, _ => rfl

theorem incSx (xy : XY) (d : Byte) : Statement (.incSx xy d) := by
  cases xy <;> exact of_bytes 3 rfl (by decide) (by decide) fun k hk =>
    match k, hk with | 0, _ => rfl | 1, _ => rfl | 2, _ => rfl

theorem incRa (disp : Word) : Statement (.incRa disp) :=
  of_bytes 4 rfl (by decide) (by decide) fun k hk =>
    match k, hk with | 0, _ => rfl | 1, _ => rfl | 2, _ => rfl | 3, _ => rfl

theorem incSr (dd : Word) : Statement (.incSr dd) :=
  of_bytes 4 rfl (by decide) (by decide) fun k hk =>
    match k, hk with | 0, _ => rfl | 1, _ => rfl | 2, _ => rfl | 3, _ => rfl

theorem incBx (pair : BX) : Statement (.incBx pair) := by
  cases pair <;> exact of_bytes 2 rfl (by decide) (by decide) fun k hk =>
    match k, hk with | 0, _ => rfl | 1, _ => rfl

theorem adcHlRr (w : RR) : Statement (.adcHlRr w) := by
  cases w <;> exact of_bytes 2 rfl (by decide) (by decide) fun k hk =>
    match k, hk with | 0, _ => rfl | 1, _ => rfl

theorem adcXyRr (xy : XY) (w : RRX) : Statement (.adcXyRr xy w) := by
  cases xy <;> cases w <;> exact of_bytes 3 rfl (by decide) (by decide) fun k hk =>
    match k, hk with | 0, _ => rfl | 1, _ => rfl | 2, _ => rfl

theorem addHlRr (w : RR) : Statement (.addHlRr w) :=
  of_bytes 1 rfl (by decide) (by decide) fun k hk =>
    match k, hk with | 0, _ => rfl

theorem addXyRr (xy : XY) (w : RRX) : Statement (.addXyRr xy w) := by
  cases xy <;> exact of_bytes 2 rfl (by decide) (by decide) fun k hk =>
    match k, hk with | 0, _ => rfl | 1, _ => rfl

theorem addXyA (xy : XY) : Statement (.addXyA xy) := by
  cases xy <;> exact of_bytes 3 rfl (by decide) (by decide) fun k hk =>
    match k, hk with | 0, _ => rfl | 1, _ => rfl | 2, _ => rfl

theorem addwRr (w : RR) : Statement (.addwRr w) := by
  cases w <;> exact of_bytes 2 rfl (by decide) (by decide) fun k hk =>
    match k, hk with | 0, _ => rfl | 1, _ => rfl

theorem addwXy (xy : XY) : Statement (.addwXy xy) := by
  cases xy <;> exact of_bytes 3 rfl (by decide) (by decide) fun k hk =>
    match k, hk with | 0, _ => rfl | 1, _ => rfl | 2, _ => rfl

theorem addwN (nn : Word) : Statement (.addwN nn) :=
  of_bytes 5 rfl (by decide) (by decide) fun k hk =>
    match k, hk with | 0, _ => rfl | 1, _ => rfl | 2, _ => rfl | 3, _ => rfl | 4, _ => rfl

theorem addwDa (addr : Word) : Statement (.addwDa addr) :=
  of_bytes 5 rfl (by decide) (by decide) fun k hk =>
    match k, hk with | 0, _ => rfl | 1, _ => rfl | 2, _ => rfl | 3, _ => rfl | 4, _ => rfl

theorem addwX (xy : XY) (dd : Word) : Statement (.addwX xy dd) := by
  cases xy <;> exact of_bytes 5 rfl (by decide) (by decide) fun k hk =>
    match k, hk with | 0, _ => rfl | 1, _ => rfl | 2, _ => rfl | 3, _ => rfl | 4, _ => rfl

theorem addwRa (disp : Word) : Statement (.addwRa disp) :=
  of_bytes 5 rfl (by decide) (by decide) fun k hk =>
    match k, hk with | 0, _ => rfl | 1, _ => rfl | 2, _ => rfl | 3, _ => rfl | 4, _ => rfl

theorem cpwRr (w : RR) : Statement (.cpwRr w) := by
  cases w <;> exact of_bytes 2 rfl (by decide) (by decide) fun k hk =>
    match k, hk with | 0, _ => rfl | 1, _ => rfl

theorem cpwXy (xy : XY) : Statement (.cpwXy xy) := by
  cases xy <;> exact of_bytes 3 rfl (by decide) (by decide) fun k hk =>
    match k, hk with | 0, _ => rfl | 1, _ => rfl | 2, _ => rfl

theorem cpwN (nn : Word) : Statement (.cpwN nn) :=
  of_bytes 5 rfl (by decide) (by decide) fun k hk =>
    match k, hk with | 0, _ => rfl | 1, _ => rfl | 2, _ => rfl | 3, _ => rfl | 4, _ => rfl

theorem cpwDa (addr : Word) : Statement (.cpwDa addr) :=
  of_bytes 5 rfl (by decide) (by decide) fun k hk =>
    match k, hk with | 0, _ => rfl | 1, _ => rfl | 2, _ => rfl | 3, _ => rfl | 4, _ => rfl

theorem cpwX (xy : XY) (dd : Word) : Statement (.cpwX xy dd) := by
  cases xy <;> exact of_bytes 5 rfl (by decide) (by decide) fun k hk =>
    match k, hk with | 0, _ => rfl | 1, _ => rfl | 2, _ => rfl | 3, _ => rfl | 4, _ => rfl

theorem cpwRa (disp : Word) : Statement (.cpwRa disp) :=
  of_bytes 5 rfl (by decide) (by decide) fun k hk =>
    match k, hk with | 0, _ => rfl | 1, _ => rfl | 2, _ => rfl | 3, _ => rfl | 4, _ => rfl

theorem decwRr (w : RR) : Statement (.decwRr w) :=
  of_bytes 1 rfl (by decide) (by decide) fun k hk =>
    match k, hk with | 0, _ => rfl

theorem decwXy (xy : XY) : Statement (.decwXy xy) := by
  cases xy <;> exact of_bytes 2 rfl (by decide) (by decide) fun k hk =>
    match k, hk with | 0, _ => rfl | 1, _ => rfl

theorem decwDa (addr : Word) : Statement (.decwDa addr) :=
  of_bytes 4 rfl (by decide) (by decide) fun k hk =>
    match k, hk with | 0, _ => rfl | 1, _ => rfl | 2, _ => rfl | 3, _ => rfl

theorem decwX (xy : XY) (dd : Word) : Statement (.decwX xy dd) := by
  cases xy <;> exact of_bytes 4 rfl (by decide) (by decide) fun k hk =>
    match k, hk with | 0, _ => rfl | 1, _ => rfl | 2, _ => rfl | 3, _ => rfl

theorem decwRa (disp : Word) : Statement (.decwRa disp) :=
  of_bytes 4 rfl (by decide) (by decide) fun k hk =>
    match k, hk with | 0, _ => rfl | 1, _ => rfl | 2, _ => rfl | 3, _ => rfl

theorem divwRr (w : RR) : Statement (.divwRr w) := by
  cases w <;> exact of_bytes 2 rfl (by decide) (by decide) fun k hk =>
    match k, hk with | 0, _ => rfl | 1, _ => rfl

theorem divwXy (xy : XY) : Statement (.divwXy xy) := by
  cases xy <;> exact of_bytes 3 rfl (by decide) (by decide) fun k hk =>
    match k, hk with | 0, _ => rfl | 1, _ => rfl | 2, _ => rfl

theorem divwN (nn : Word) : Statement (.divwN nn) :=
  of_bytes 5 rfl (by decide) (by decide) fun k hk =>
    match k, hk with | 0, _ => rfl | 1, _ => rfl | 2, _ => rfl | 3, _ => rfl | 4, _ => rfl

theorem divwDa (addr : Word) : Statement (.divwDa addr) :=
  of_bytes 5 rfl (by decide) (by decide) fun k hk =>
    match k, hk with | 0, _ => rfl | 1, _ => rfl | 2, _ => rfl | 3, _ => rfl | 4, _ => rfl

theorem divwX (xy : XY) (dd : Word) : Statement (.divwX xy dd) := by
  cases xy <;> exact of_bytes 5 rfl (by decide) (by decide) fun k hk =>
    match k, hk with | 0, _ => rfl | 1, _ => rfl | 2, _ => rfl | 3, _ => rfl | 4, _ => rfl

theorem divwRa (disp : Word) : Statement (.divwRa disp) :=
  of_bytes 5 rfl (by decide) (by decide) fun k hk =>
    match k, hk with | 0, _ => rfl | 1, _ => rfl | 2, _ => rfl | 3, _ => rfl | 4, _ => rfl

theorem divuwRr (w : RR) : Statement (.divuwRr w) := by
  cases w <;> exact of_bytes 2 rfl (by decide) (by decide) fun k hk =>
    match k, hk with | 0, _ => rfl | 1, _ => rfl

theorem divuwXy (xy : XY) : Statement (.divuwXy xy) := by
  cases xy <;> exact of_bytes 3 rfl (by decide) (by decide) fun k hk =>
    match k, hk with | 0, _ => rfl | 1, _ => rfl | 2, _ => rfl

theorem divuwN (nn : Word) : Statement (.divuwN nn) :=
  of_bytes 5 rfl (by decide) (by decide) fun k hk =>
    match k, hk with | 0, _ => rfl | 1, _ => rfl | 2, _ => rfl | 3, _ => rfl | 4, _ => rfl

theorem divuwDa (addr : Word) : Statement (.divuwDa addr) :=
  of_bytes 5 rfl (by decide) (by decide) fun k hk =>
    match k, hk with | 0, _ => rfl | 1, _ => rfl | 2, _ => rfl | 3, _ => rfl | 4, _ => rfl

theorem divuwX (xy : XY) (dd : Word) : Statement (.divuwX xy dd) := by
  cases xy <;> exact of_bytes 5 rfl (by decide) (by decide) fun k hk =>
    match k, hk with | 0, _ => rfl | 1, _ => rfl | 2, _ => rfl | 3, _ => rfl | 4, _ => rfl

theorem divuwRa (disp : Word) : Statement (.divuwRa disp) :=
  of_bytes 5 rfl (by decide) (by decide) fun k hk =>
    match k, hk with | 0, _ => rfl | 1, _ => rfl | 2, _ => rfl | 3, _ => rfl | 4, _ => rfl

theorem incwRr (w : RR) : Statement (.incwRr w) :=
  of_bytes 1 rfl (by decide) (by decide) fun k hk =>
    match k, hk with | 0, _ => rfl

theorem incwXy (xy : XY) : Statement (.incwXy xy) := by
  cases xy <;> exact of_bytes 2 rfl (by decide) (by decide) fun k hk =>
    match k, hk with | 0, _ => rfl | 1, _ => rfl

theorem incwDa (addr : Word) : Statement (.incwDa addr) :=
  of_bytes 4 rfl (by decide) (by decide) fun k hk =>
    match k, hk with | 0, _ => rfl | 1, _ => rfl | 2, _ => rfl | 3, _ => rfl

theorem incwX (xy : XY) (dd : Word) : Statement (.incwX xy dd) := by
  cases xy <;> exact of_bytes 4 rfl (by decide) (by decide) fun k hk =>
    match k, hk with | 0, _ => rfl | 1, _ => rfl | 2, _ => rfl | 3, _ => rfl

theorem incwRa (disp : Word) : Statement (.incwRa disp) :=
  of_bytes 4 rfl (by decide) (by decide) fun k hk =>
    match k, hk with | 0, _ => rfl | 1, _ => rfl | 2, _ => rfl | 3, _ => rfl

theorem bitR (bit : BitVec 3) (r : R8) : Statement (.bitR bit r) := by
  cases r <;> exact of_bytes 2 rfl (by decide) (by decide) fun k hk =>
    match k, hk with | 0, _ => rfl | 1, _ => rfl

theorem bitHl (bit : BitVec 3) : Statement (.bitHl bit) :=
  of_bytes 2 rfl (by decide) (by decide) fun k hk =>
    match k, hk with | 0, _ => rfl | 1, _ => rfl

theorem bitSx (xy : XY) (d : Byte) (bit : BitVec 3) : Statement (.bitSx xy d bit) := by
  cases xy <;> exact of_bytes 4 rfl (by decide) (by decide) fun k hk =>
    match k, hk with | 0, _ => rfl | 1, _ => rfl | 2, _ => rfl | 3, _ => rfl

theorem callCcHl (cc : CC) : Statement (.callCcHl cc) := by
  cases cc <;> exact of_bytes 2 rfl (by decide) (by decide) fun k hk =>
    match k, hk with | 0, _ => rfl | 1, _ => rfl

theorem callCc (cc : CC) (addr : Word) : Statement (.callCc cc addr) := by
  cases cc <;> exact of_bytes 3 rfl (by decide) (by decide) fun k hk =>
    match k, hk with | 0, _ => rfl | 1, _ => rfl | 2, _ => rfl

theorem callDa (addr : Word) : Statement (.callDa addr) :=
  of_bytes 3 rfl (by decide) (by decide) fun k hk =>
    match k, hk with | 0, _ => rfl | 1, _ => rfl | 2, _ => rfl

theorem callCcRa (cc : CC) (disp : Word) : Statement (.callCcRa cc disp) := by
  cases cc <;> exact of_bytes 4 rfl (by decide) (by decide) fun k hk =>
    match k, hk with | 0, _ => rfl | 1, _ => rfl | 2, _ => rfl | 3, _ => rfl

theorem callRa (disp : Word) : Statement (.callRa disp) :=
  of_bytes 4 rfl (by decide) (by decide) fun k hk =>
    match k, hk with | 0, _ => rfl | 1, _ => rfl | 2, _ => rfl | 3, _ => rfl

theorem djnz (disp : Byte) : Statement (.djnz disp) :=
  of_bytes 2 rfl (by decide) (by decide) fun k hk =>
    match k, hk with | 0, _ => rfl | 1, _ => rfl

theorem jpCcHl (cc : CC) : Statement (.jpCcHl cc) := by
  cases cc <;> exact of_bytes 2 rfl (by decide) (by decide) fun k hk =>
    match k, hk with | 0, _ => rfl | 1, _ => rfl

theorem jpXy (xy : XY) : Statement (.jpXy xy) := by
  cases xy <;> exact of_bytes 2 rfl (by decide) (by decide) fun k hk =>
    match k, hk with | 0, _ => rfl | 1, _ => rfl

theorem jpCc (cc : CC) (addr : Word) : Statement (.jpCc cc addr) := by
  cases cc <;> exact of_bytes 3 rfl (by decide) (by decide) fun k hk =>
    match k, hk with | 0, _ => rfl | 1, _ => rfl | 2, _ => rfl

theorem jpDa (addr : Word) : Statement (.jpDa addr) :=
  of_bytes 3 rfl (by decide) (by decide) fun k hk =>
    match k, hk with | 0, _ => rfl | 1, _ => rfl | 2, _ => rfl

theorem jpCcRa (cc : CC) (disp : Word) : Statement (.jpCcRa cc disp) := by
  cases cc <;> exact of_bytes 4 rfl (by decide) (by decide) fun k hk =>
    match k, hk with | 0, _ => rfl | 1, _ => rfl | 2, _ => rfl | 3, _ => rfl

theorem jpRa (disp : Word) : Statement (.jpRa disp) :=
  of_bytes 4 rfl (by decide) (by decide) fun k hk =>
    match k, hk with | 0, _ => rfl | 1, _ => rfl | 2, _ => rfl | 3, _ => rfl

theorem jrCc (jcc : JCC) (disp : Byte) : Statement (.jrCc jcc disp) := by
  cases jcc <;> exact of_bytes 2 rfl (by decide) (by decide) fun k hk =>
    match k, hk with | 0, _ => rfl | 1, _ => rfl

theorem jr (disp : Byte) : Statement (.jr disp) :=
  of_bytes 2 rfl (by decide) (by decide) fun k hk =>
    match k, hk with | 0, _ => rfl | 1, _ => rfl

theorem jaf (disp : Byte) : Statement (.jaf disp) :=
  of_bytes 3 rfl (by decide) (by decide) fun k hk =>
    match k, hk with | 0, _ => rfl | 1, _ => rfl | 2, _ => rfl

theorem jar (disp : Byte) : Statement (.jar disp) :=
  of_bytes 3 rfl (by decide) (by decide) fun k hk =>
    match k, hk with | 0, _ => rfl | 1, _ => rfl | 2, _ => rfl

theorem inR (r : R8) : Statement (.inR r) := by
  cases r <;> exact of_bytes 2 rfl (by decide) (by decide) fun k hk =>
    match k, hk with | 0, _ => rfl | 1, _ => rfl

theorem inRx (xy : XY) (half : Half) : Statement (.inRx xy half) := by
  cases xy <;> cases half <;> exact of_bytes 3 rfl (by decide) (by decide) fun k hk =>
    match k, hk with | 0, _ => rfl | 1, _ => rfl | 2, _ => rfl

theorem inDa (addr : Word) : Statement (.inDa addr) :=
  of_bytes 5 rfl (by decide) (by decide) fun k hk =>
    match k, hk with | 0, _ => rfl | 1, _ => rfl | 2, _ => rfl | 3, _ => rfl | 4, _ => rfl

theorem inX (base : XX) (dd : Word) : Statement (.inX base dd) := by
  cases base <;> exact of_bytes 5 rfl (by decide) (by decide) fun k hk =>
    match k, hk with | 0, _ => rfl | 1, _ => rfl | 2, _ => rfl | 3, _ => rfl | 4, _ => rfl

theorem inRa (disp : Word) : Statement (.inRa disp) :=
  of_bytes 5 rfl (by decide) (by decide) fun k hk =>
    match k, hk with | 0, _ => rfl | 1, _ => rfl | 2, _ => rfl | 3, _ => rfl | 4, _ => rfl

theorem inSr (dd : Word) : Statement (.inSr dd) :=
  of_bytes 5 rfl (by decide) (by decide) fun k hk =>
    match k, hk with | 0, _ => rfl | 1, _ => rfl | 2, _ => rfl | 3, _ => rfl | 4, _ => rfl

theorem inBx (pair : BX) : Statement (.inBx pair) := by
  cases pair <;> exact of_bytes 3 rfl (by decide) (by decide) fun k hk =>
    match k, hk with | 0, _ => rfl | 1, _ => rfl | 2, _ => rfl

theorem inAN (n : Byte) : Statement (.inAN n) :=
  of_bytes 2 rfl (by decide) (by decide) fun k hk =>
    match k, hk with | 0, _ => rfl | 1, _ => rfl

theorem diMask (mask : Byte) : Statement (.diMask mask) :=
  of_bytes 3 rfl (by decide) (by decide) fun k hk =>
    match k, hk with | 0, _ => rfl | 1, _ => rfl | 2, _ => rfl

theorem eiMask (mask : Byte) : Statement (.eiMask mask) :=
  of_bytes 3 rfl (by decide) (by decide) fun k hk =>
    match k, hk with | 0, _ => rfl | 1, _ => rfl | 2, _ => rfl

theorem ldctlXyC (xy : XY) : Statement (.ldctlXyC xy) := by
  cases xy <;> exact of_bytes 3 rfl (by decide) (by decide) fun k hk =>
    match k, hk with | 0, _ => rfl | 1, _ => rfl | 2, _ => rfl

theorem ldctlCXy (xy : XY) : Statement (.ldctlCXy xy) := by
  cases xy <;> exact of_bytes 3 rfl (by decide) (by decide) fun k hk =>
    match k, hk with | 0, _ => rfl | 1, _ => rfl | 2, _ => rfl

theorem ldctlXyUsp (xy : XY) : Statement (.ldctlXyUsp xy) := by
  cases xy <;> exact of_bytes 3 rfl (by decide) (by decide) fun k hk =>
    match k, hk with | 0, _ => rfl | 1, _ => rfl | 2, _ => rfl

theorem ldctlUspXy (xy : XY) : Statement (.ldctlUspXy xy) := by
  cases xy <;> exact of_bytes 3 rfl (by decide) (by decide) fun k hk =>
    match k, hk with | 0, _ => rfl | 1, _ => rfl | 2, _ => rfl

theorem exAHl : Statement .exAHl :=
  of_bytes 2 rfl (by decide) (by decide) fun k hk =>
    match k, hk with | 0, _ => rfl | 1, _ => rfl

theorem exHL : Statement .exHL :=
  of_bytes 2 rfl (by decide) (by decide) fun k hk =>
    match k, hk with | 0, _ => rfl | 1, _ => rfl

theorem ldudAHl : Statement .ldudAHl :=
  of_bytes 2 rfl (by decide) (by decide) fun k hk =>
    match k, hk with | 0, _ => rfl | 1, _ => rfl

theorem ldudHlA : Statement .ldudHlA :=
  of_bytes 2 rfl (by decide) (by decide) fun k hk =>
    match k, hk with | 0, _ => rfl | 1, _ => rfl

theorem ldupAHl : Statement .ldupAHl :=
  of_bytes 2 rfl (by decide) (by decide) fun k hk =>
    match k, hk with | 0, _ => rfl | 1, _ => rfl

theorem ldupHlA : Statement .ldupHlA :=
  of_bytes 2 rfl (by decide) (by decide) fun k hk =>
    match k, hk with | 0, _ => rfl | 1, _ => rfl

theorem exDeHl : Statement .exDeHl :=
  of_bytes 1 rfl (by decide) (by decide) fun k hk =>
    match k, hk with | 0, _ => rfl

theorem exAfAf : Statement .exAfAf :=
  of_bytes 1 rfl (by decide) (by decide) fun k hk =>
    match k, hk with | 0, _ => rfl

theorem exx : Statement .exx :=
  of_bytes 1 rfl (by decide) (by decide) fun k hk =>
    match k, hk with | 0, _ => rfl

theorem exSpHl : Statement .exSpHl :=
  of_bytes 1 rfl (by decide) (by decide) fun k hk =>
    match k, hk with | 0, _ => rfl

theorem ldi : Statement .ldi :=
  of_bytes 2 rfl (by decide) (by decide) fun k hk =>
    match k, hk with | 0, _ => rfl | 1, _ => rfl

theorem ldd : Statement .ldd :=
  of_bytes 2 rfl (by decide) (by decide) fun k hk =>
    match k, hk with | 0, _ => rfl | 1, _ => rfl

theorem ldir : Statement .ldir :=
  of_bytes 2 rfl (by decide) (by decide) fun k hk =>
    match k, hk with | 0, _ => rfl | 1, _ => rfl

theorem lddr : Statement .lddr :=
  of_bytes 2 rfl (by decide) (by decide) fun k hk =>
    match k, hk with | 0, _ => rfl | 1, _ => rfl

theorem cpi : Statement .cpi :=
  of_bytes 2 rfl (by decide) (by decide) fun k hk =>
    match k, hk with | 0, _ => rfl | 1, _ => rfl

theorem cpd : Statement .cpd :=
  of_bytes 2 rfl (by decide) (by decide) fun k hk =>
    match k, hk with | 0, _ => rfl | 1, _ => rfl

theorem cpir : Statement .cpir :=
  of_bytes 2 rfl (by decide) (by decide) fun k hk =>
    match k, hk with | 0, _ => rfl | 1, _ => rfl

theorem cpdr : Statement .cpdr :=
  of_bytes 2 rfl (by decide) (by decide) fun k hk =>
    match k, hk with | 0, _ => rfl | 1, _ => rfl

theorem adcAHl : Statement .adcAHl :=
  of_bytes 1 rfl (by decide) (by decide) fun k hk =>
    match k, hk with | 0, _ => rfl

theorem addAHl : Statement .addAHl :=
  of_bytes 1 rfl (by decide) (by decide) fun k hk =>
    match k, hk with | 0, _ => rfl

theorem andAHl : Statement .andAHl :=
  of_bytes 1 rfl (by decide) (by decide) fun k hk =>
    match k, hk with | 0, _ => rfl

theorem cpAHl : Statement .cpAHl :=
  of_bytes 1 rfl (by decide) (by decide) fun k hk =>
    match k, hk with | 0, _ => rfl

theorem cpl : Statement .cpl :=
  of_bytes 1 rfl (by decide) (by decide) fun k hk =>
    match k, hk with | 0, _ => rfl

theorem daa : Statement .daa :=
  of_bytes 1 rfl (by decide) (by decide) fun k hk =>
    match k, hk with | 0, _ => rfl

theorem decHl : Statement .decHl :=
  of_bytes 1 rfl (by decide) (by decide) fun k hk =>
    match k, hk with | 0, _ => rfl

theorem divHl : Statement .divHl :=
  of_bytes 2 rfl (by decide) (by decide) fun k hk =>
    match k, hk with | 0, _ => rfl | 1, _ => rfl

theorem divuHl : Statement .divuHl :=
  of_bytes 2 rfl (by decide) (by decide) fun k hk =>
    match k, hk with | 0, _ => rfl | 1, _ => rfl

theorem extsA : Statement .extsA :=
  of_bytes 2 rfl (by decide) (by decide) fun k hk =>
    match k, hk with | 0, _ => rfl | 1, _ => rfl

theorem incHl : Statement .incHl :=
  of_bytes 1 rfl (by decide) (by decide) fun k hk =>
    match k, hk with | 0, _ => rfl

theorem addHlA : Statement .addHlA :=
  of_bytes 2 rfl (by decide) (by decide) fun k hk =>
    match k, hk with | 0, _ => rfl | 1, _ => rfl

theorem addwHl : Statement .addwHl :=
  of_bytes 3 rfl (by decide) (by decide) fun k hk =>
    match k, hk with | 0, _ => rfl | 1, _ => rfl | 2, _ => rfl

theorem cpwHl : Statement .cpwHl :=
  of_bytes 3 rfl (by decide) (by decide) fun k hk =>
    match k, hk with | 0, _ => rfl | 1, _ => rfl | 2, _ => rfl

theorem decwHl : Statement .decwHl :=
  of_bytes 2 rfl (by decide) (by decide) fun k hk =>
    match k, hk with | 0, _ => rfl | 1, _ => rfl

theorem divwHl : Statement .divwHl :=
  of_bytes 3 rfl (by decide) (by decide) fun k hk =>
    match k, hk with | 0, _ => rfl | 1, _ => rfl | 2, _ => rfl

theorem divuwHl : Statement .divuwHl :=
  of_bytes 3 rfl (by decide) (by decide) fun k hk =>
    match k, hk with | 0, _ => rfl | 1, _ => rfl | 2, _ => rfl

theorem extsHl : Statement .extsHl :=
  of_bytes 2 rfl (by decide) (by decide) fun k hk =>
    match k, hk with | 0, _ => rfl | 1, _ => rfl

theorem incwHl : Statement .incwHl :=
  of_bytes 2 rfl (by decide) (by decide) fun k hk =>
    match k, hk with | 0, _ => rfl | 1, _ => rfl

theorem callHl : Statement .callHl :=
  of_bytes 2 rfl (by decide) (by decide) fun k hk =>
    match k, hk with | 0, _ => rfl | 1, _ => rfl

theorem ccf : Statement .ccf :=
  of_bytes 1 rfl (by decide) (by decide) fun k hk =>
    match k, hk with | 0, _ => rfl

theorem jpHl : Statement .jpHl :=
  of_bytes 1 rfl (by decide) (by decide) fun k hk =>
    match k, hk with | 0, _ => rfl

theorem inw : Statement .inw :=
  of_bytes 2 rfl (by decide) (by decide) fun k hk =>
    match k, hk with | 0, _ => rfl | 1, _ => rfl

theorem ini : Statement .ini :=
  of_bytes 2 rfl (by decide) (by decide) fun k hk =>
    match k, hk with | 0, _ => rfl | 1, _ => rfl

theorem iniw : Statement .iniw :=
  of_bytes 2 rfl (by decide) (by decide) fun k hk =>
    match k, hk with | 0, _ => rfl | 1, _ => rfl

theorem ind : Statement .ind :=
  of_bytes 2 rfl (by decide) (by decide) fun k hk =>
    match k, hk with | 0, _ => rfl | 1, _ => rfl

theorem indw : Statement .indw :=
  of_bytes 2 rfl (by decide) (by decide) fun k hk =>
    match k, hk with | 0, _ => rfl | 1, _ => rfl

theorem inir : Statement .inir :=
  of_bytes 2 rfl (by decide) (by decide) fun k hk =>
    match k, hk with | 0, _ => rfl | 1, _ => rfl

theorem inirw : Statement .inirw :=
  of_bytes 2 rfl (by decide) (by decide) fun k hk =>
    match k, hk with | 0, _ => rfl | 1, _ => rfl

theorem indr : Statement .indr :=
  of_bytes 2 rfl (by decide) (by decide) fun k hk =>
    match k, hk with | 0, _ => rfl | 1, _ => rfl

theorem indrw : Statement .indrw :=
  of_bytes 2 rfl (by decide) (by decide) fun k hk =>
    match k, hk with | 0, _ => rfl | 1, _ => rfl

theorem di : Statement .di :=
  of_bytes 1 rfl (by decide) (by decide) fun k hk =>
    match k, hk with | 0, _ => rfl

theorem ei : Statement .ei :=
  of_bytes 1 rfl (by decide) (by decide) fun k hk =>
    match k, hk with | 0, _ => rfl

theorem halt : Statement .halt :=
  of_bytes 1 rfl (by decide) (by decide) fun k hk =>
    match k, hk with | 0, _ => rfl

theorem im0 : Statement .im0 :=
  of_bytes 2 rfl (by decide) (by decide) fun k hk =>
    match k, hk with | 0, _ => rfl | 1, _ => rfl

theorem im1 : Statement .im1 :=
  of_bytes 2 rfl (by decide) (by decide) fun k hk =>
    match k, hk with | 0, _ => rfl | 1, _ => rfl

theorem im2 : Statement .im2 :=
  of_bytes 2 rfl (by decide) (by decide) fun k hk =>
    match k, hk with | 0, _ => rfl | 1, _ => rfl

theorem im3 : Statement .im3 :=
  of_bytes 2 rfl (by decide) (by decide) fun k hk =>
    match k, hk with | 0, _ => rfl | 1, _ => rfl

theorem ldIA : Statement .ldIA :=
  of_bytes 2 rfl (by decide) (by decide) fun k hk =>
    match k, hk with | 0, _ => rfl | 1, _ => rfl

theorem ldRfA : Statement .ldRfA :=
  of_bytes 2 rfl (by decide) (by decide) fun k hk =>
    match k, hk with | 0, _ => rfl | 1, _ => rfl

theorem ldAI : Statement .ldAI :=
  of_bytes 2 rfl (by decide) (by decide) fun k hk =>
    match k, hk with | 0, _ => rfl | 1, _ => rfl

theorem ldARf : Statement .ldARf :=
  of_bytes 2 rfl (by decide) (by decide) fun k hk =>
    match k, hk with | 0, _ => rfl | 1, _ => rfl

theorem ldctlHlC : Statement .ldctlHlC :=
  of_bytes 2 rfl (by decide) (by decide) fun k hk =>
    match k, hk with | 0, _ => rfl | 1, _ => rfl

theorem ldctlCHl : Statement .ldctlCHl :=
  of_bytes 2 rfl (by decide) (by decide) fun k hk =>
    match k, hk with | 0, _ => rfl | 1, _ => rfl

theorem ldctlHlUsp : Statement .ldctlHlUsp :=
  of_bytes 2 rfl (by decide) (by decide) fun k hk =>
    match k, hk with | 0, _ => rfl | 1, _ => rfl

theorem ldctlUspHl : Statement .ldctlUspHl :=
  of_bytes 2 rfl (by decide) (by decide) fun k hk =>
    match k, hk with | 0, _ => rfl | 1, _ => rfl

end Prefix

end Sys2Proof.Laws
end

