-- ==== Sys2Proof/Tests/Slice0.lean ====
section
/-! SUPPORT. The model's own tests: the checks of WellFormed, a word for every constructor written out from the encoding
tables, vectors of 95_test_vectors.md, and states that meet the hypotheses of the statements. -/

namespace Sys2Proof.Machine

/-! ### WellFormed -/

theorem test_wf_ld_star_h : (Instr.ldGRx .ix .h .hi).wellFormed = false := rfl
theorem test_wf_ld_star_l : (Instr.ldGRx .iy .l .lo).wellFormed = false := rfl
theorem test_wf_ld_half_h : (Instr.ldRxG .ix .hi .h).wellFormed = false := rfl
theorem test_wf_ld_half_l : (Instr.ldRxG .iy .lo .l).wellFormed = false := rfl
theorem test_wf_di_mask : (Instr.diMask 0x80).wellFormed = false := rfl
theorem test_wf_ei_mask : (Instr.eiMask 0xFF).wellFormed = false := rfl

/-! ### Decoding: the bytes are written from the `encoding` column of the table, with one choice of every field -/

theorem test_decode_load8_1 : ∀ p ∈ ([
    ([0x51], .ldReg .d .c), ([0xDD, 0x5D], .ldGRx .ix .e .lo), ([0xFD, 0x64], .ldRxRx .iy .hi .hi),
    ([0xDD, 0x6F], .ldRxG .ix .lo .a), ([0x7E], .ldRHl .a), ([0xFD, 0x6E, 0x85], .ldRSx .iy .l 0x85),
    ([0x70], .ldHlR .b), ([0xDD, 0x74, 0x85], .ldSxR .ix .h 0x85), ([0x16, 0x5A], .ldRN .d 0x5A),
    ([0xFD, 0x26, 0x5A], .ldRxN .iy .hi 0x5A), ([0x36, 0x5A], .ldHlN 0x5A),
    ([0xDD, 0x3E, 0x34, 0x12, 0x5A], .ldDaN 0x1234 0x5A), ([0xFD, 0x0E, 0xDC, 0xFE, 0x5A], .ldXN .ix 0xFEDC 0x5A),
    ([0xDD, 0x36, 0x85, 0x5A], .ldSxN .ix 0x85 0x5A), ([0xFD, 0x06, 0xAB, 0x89, 0x5A], .ldRaN 0x89AB 0x5A),
    ([0xDD, 0x06, 0xDC, 0xFE, 0x5A], .ldSrN 0xFEDC 0x5A), ([0xDD, 0x0E, 0x5A], .ldBxN .hlIx 0x5A),
    ([0x1A], .ldAIr .de), ([0x3A, 0x34, 0x12], .ldADa 0x1234), ([0xFD, 0x7A, 0xDC, 0xFE], .ldAX .iy 0xFEDC),
    ([0xFD, 0x78, 0xAB, 0x89], .ldARa 0x89AB), ([0xDD, 0x78, 0xDC, 0xFE], .ldASr 0xFEDC),
    ([0xDD, 0x7A], .ldABx .hlIy), ([0x02], .ldIrA .bc), ([0x32, 0x34, 0x12], .ldDaA 0x1234),
    ([0xED, 0x3B, 0xDC, 0xFE], .ldXA .hl 0xFEDC)
    ] : List (List Byte × Instr)), decode p.1 = .ok p.2 [] := by decide

theorem test_decode_load8_2 : ∀ p ∈ ([
    ([0xED, 0x23, 0xAB, 0x89], .ldRaA 0x89AB), ([0xED, 0x03, 0xDC, 0xFE], .ldSrA 0xFEDC),
    ([0xED, 0x1B], .ldBxA .ixIy), ([0xED, 0x3F], .exAR .a), ([0xFD, 0xED, 0x2F], .exARx .iy .lo),
    ([0xED, 0x37], .exAHl), ([0xDD, 0xED, 0x3F, 0x34, 0x12], .exADa 0x1234),
    ([0xFD, 0xED, 0x0F, 0xDC, 0xFE], .exAX .ix 0xFEDC), ([0xDD, 0xED, 0x37, 0x85], .exASx .ix 0x85),
    ([0xFD, 0xED, 0x07, 0xAB, 0x89], .exARa 0x89AB), ([0xDD, 0xED, 0x07, 0xDC, 0xFE], .exASr 0xFEDC),
    ([0xDD, 0xED, 0x0F], .exABx .hlIx), ([0xED, 0xEF], .exHL), ([0xED, 0x86], .ldudAHl),
    ([0xFD, 0xED, 0x86, 0x85], .ldudASx .iy 0x85), ([0xED, 0x8E], .ldudHlA),
    ([0xDD, 0xED, 0x8E, 0x85], .ldudSxA .ix 0x85), ([0xED, 0x96], .ldupAHl),
    ([0xFD, 0xED, 0x96, 0x85], .ldupASx .iy 0x85), ([0xED, 0x9E], .ldupHlA),
    ([0xDD, 0xED, 0x9E, 0x85], .ldupSxA .ix 0x85)
    ] : List (List Byte × Instr)), decode p.1 = .ok p.2 [] := by decide

theorem test_decode_load16 : ∀ p ∈ ([
    ([0xEB], .exDeHl), ([0xFD, 0xEB], .exXyHl .iy), ([0x08], .exAfAf), ([0xD9], .exx), ([0xE3], .exSpHl),
    ([0xDD, 0xE3], .exSpXy .ix), ([0xED, 0x32, 0xDC, 0xFE], .ldaHlX .iy 0xFEDC),
    ([0xFD, 0xED, 0x3A, 0xDC, 0xFE], .ldaXyX .iy .hl 0xFEDC), ([0xED, 0x22, 0xAB, 0x89], .ldaHlRa 0x89AB),
    ([0xDD, 0xED, 0x22, 0xAB, 0x89], .ldaXyRa .ix 0x89AB), ([0xED, 0x02, 0xDC, 0xFE], .ldaHlSr 0xFEDC),
    ([0xFD, 0xED, 0x02, 0xDC, 0xFE], .ldaXySr .iy 0xFEDC), ([0xED, 0x12], .ldaHlBx .hlIy),
    ([0xDD, 0xED, 0x1A], .ldaXyBx .ix .ixIy), ([0x11, 0x67, 0x45], .ldwRrN .de 0x4567),
    ([0xFD, 0x21, 0x67, 0x45], .ldwXyN .iy 0x4567), ([0xDD, 0x01, 0x67, 0x45], .ldwHlN 0x4567),
    ([0xDD, 0x11, 0x34, 0x12, 0x67, 0x45], .ldwDaN 0x1234 0x4567),
    ([0xDD, 0x31, 0xAB, 0x89, 0x67, 0x45], .ldwRaN 0x89AB 0x4567)
    ] : List (List Byte × Instr)), decode p.1 = .ok p.2 [] := by decide

theorem test_decode_block : ∀ p ∈ ([
    ([0xED, 0xA0], .ldi), ([0xED, 0xA8], .ldd), ([0xED, 0xB0], .ldir), ([0xED, 0xB8], .lddr), ([0xED, 0xA1], .cpi),
    ([0xED, 0xA9], .cpd), ([0xED, 0xB1], .cpir), ([0xED, 0xB9], .cpdr)
    ] : List (List Byte × Instr)), decode p.1 = .ok p.2 [] := by decide

theorem test_decode_arith8_1 : ∀ p ∈ ([
    ([0x8D], .adcAR .l), ([0xDD, 0x8C], .adcARx .ix .hi), ([0xCE, 0x5A], .adcAN 0x5A), ([0x8E], .adcAHl),
    ([0xDD, 0x8F, 0x34, 0x12], .adcADa 0x1234), ([0xFD, 0x89, 0xDC, 0xFE], .adcAX .ix 0xFEDC),
    ([0xFD, 0x8E, 0x85], .adcASx .iy 0x85), ([0xFD, 0x88, 0xAB, 0x89], .adcARa 0x89AB),
    ([0xDD, 0x88, 0xDC, 0xFE], .adcASr 0xFEDC), ([0xDD, 0x89], .adcABx .hlIx), ([0x80], .addAR .b),
    ([0xDD, 0x85], .addARx .ix .lo), ([0xC6, 0x5A], .addAN 0x5A), ([0x86], .addAHl),
    ([0xDD, 0x87, 0x34, 0x12], .addADa 0x1234), ([0xFD, 0x82, 0xDC, 0xFE], .addAX .iy 0xFEDC),
    ([0xFD, 0x86, 0x85], .addASx .iy 0x85), ([0xFD, 0x80, 0xAB, 0x89], .addARa 0x89AB),
    ([0xDD, 0x80, 0xDC, 0xFE], .addASr 0xFEDC), ([0xDD, 0x82], .addABx .hlIy), ([0xA4], .andAR .h),
    ([0xDD, 0xA4], .andARx .ix .hi), ([0xE6, 0x5A], .andAN 0x5A), ([0xA6], .andAHl),
    ([0xDD, 0xA7, 0x34, 0x12], .andADa 0x1234), ([0xFD, 0xA3, 0xDC, 0xFE], .andAX .hl 0xFEDC)
    ] : List (List Byte × Instr)), decode p.1 = .ok p.2 [] := by decide

theorem test_decode_arith8_2 : ∀ p ∈ ([
    ([0xFD, 0xA6, 0x85], .andASx .iy 0x85), ([0xFD, 0xA0, 0xAB, 0x89], .andARa 0x89AB),
    ([0xDD, 0xA0, 0xDC, 0xFE], .andASr 0xFEDC), ([0xDD, 0xA3], .andABx .ixIy), ([0xBA], .cpAR .d),
    ([0xDD, 0xBD], .cpARx .ix .lo), ([0xFE, 0x5A], .cpAN 0x5A), ([0xBE], .cpAHl),
    ([0xDD, 0xBF, 0x34, 0x12], .cpADa 0x1234), ([0xFD, 0xB9, 0xDC, 0xFE], .cpAX .ix 0xFEDC),
    ([0xFD, 0xBE, 0x85], .cpASx .iy 0x85), ([0xFD, 0xB8, 0xAB, 0x89], .cpARa 0x89AB),
    ([0xDD, 0xB8, 0xDC, 0xFE], .cpASr 0xFEDC), ([0xDD, 0xB9], .cpABx .hlIx), ([0x2F], .cpl), ([0x27], .daa),
    ([0x3D], .decR .a), ([0xDD, 0x25], .decRx .ix .hi), ([0x35], .decHl), ([0xDD, 0x3D, 0x34, 0x12], .decDa 0x1234),
    ([0xFD, 0x15, 0xDC, 0xFE], .decX .iy 0xFEDC), ([0xFD, 0x35, 0x85], .decSx .iy 0x85),
    ([0xFD, 0x05, 0xAB, 0x89], .decRa 0x89AB), ([0xDD, 0x05, 0xDC, 0xFE], .decSr 0xFEDC),
    ([0xDD, 0x15], .decBx .hlIy), ([0xED, 0xEC], .divR .l)
    ] : List (List Byte × Instr)), decode p.1 = .ok p.2 [] := by decide

theorem test_decode_arith8_3 : ∀ p ∈ ([
    ([0xDD, 0xED, 0xEC], .divRx .ix .lo), ([0xFD, 0xED, 0xFC, 0x5A], .divN 0x5A), ([0xED, 0xF4], .divHl),
    ([0xDD, 0xED, 0xFC, 0x34, 0x12], .divDa 0x1234), ([0xFD, 0xED, 0xDC, 0xDC, 0xFE], .divX .hl 0xFEDC),
    ([0xFD, 0xED, 0xF4, 0x85], .divSx .iy 0x85), ([0xFD, 0xED, 0xC4, 0xAB, 0x89], .divRa 0x89AB),
    ([0xDD, 0xED, 0xC4, 0xDC, 0xFE], .divSr 0xFEDC), ([0xDD, 0xED, 0xDC], .divBx .ixIy), ([0xED, 0xC5], .divuR .b),
    ([0xDD, 0xED, 0xE5], .divuRx .ix .hi), ([0xFD, 0xED, 0xFD, 0x5A], .divuN 0x5A), ([0xED, 0xF5], .divuHl),
    ([0xDD, 0xED, 0xFD, 0x34, 0x12], .divuDa 0x1234), ([0xFD, 0xED, 0xCD, 0xDC, 0xFE], .divuX .ix 0xFEDC),
    ([0xFD, 0xED, 0xF5, 0x85], .divuSx .iy 0x85), ([0xFD, 0xED, 0xC5, 0xAB, 0x89], .divuRa 0x89AB),
    ([0xDD, 0xED, 0xC5, 0xDC, 0xFE], .divuSr 0xFEDC), ([0xDD, 0xED, 0xCD], .divuBx .hlIx), ([0xED, 0x64], .extsA),
    ([0x24], .incR .h), ([0xDD, 0x2C], .incRx .ix .lo), ([0x34], .incHl), ([0xDD, 0x3C, 0x34, 0x12], .incDa 0x1234),
    ([0xFD, 0x14, 0xDC, 0xFE], .incX .iy 0xFEDC), ([0xFD, 0x34, 0x85], .incSx .iy 0x85)
    ] : List (List Byte × Instr)), decode p.1 = .ok p.2 [] := by decide

theorem test_decode_arith8_4 : ∀ p ∈ ([
    ([0xFD, 0x04, 0xAB, 0x89], .incRa 0x89AB), ([0xDD, 0x04, 0xDC, 0xFE], .incSr 0xFEDC),
    ([0xDD, 0x14], .incBx .hlIy)
    ] : List (List Byte × Instr)), decode p.1 = .ok p.2 [] := by decide

theorem test_decode_arith16_1 : ∀ p ∈ ([
    ([0xED, 0x7A], .adcHlRr .sp), ([0xDD, 0xED, 0x6A], .adcXyRr .ix .self), ([0x29], .addHlRr .hl),
    ([0xFD, 0x29], .addXyRr .iy .self), ([0xED, 0x6D], .addHlA), ([0xDD, 0xED, 0x6D], .addXyA .ix),
    ([0xED, 0xF6], .addwRr .sp), ([0xFD, 0xED, 0xE6], .addwXy .iy), ([0xFD, 0xED, 0xF6, 0x67, 0x45], .addwN 0x4567),
    ([0xDD, 0xED, 0xD6, 0x34, 0x12], .addwDa 0x1234), ([0xFD, 0xED, 0xD6, 0xDC, 0xFE], .addwX .iy 0xFEDC),
    ([0xDD, 0xED, 0xF6, 0xAB, 0x89], .addwRa 0x89AB), ([0xDD, 0xED, 0xC6], .addwHl), ([0xED, 0xC7], .cpwRr .bc),
    ([0xDD, 0xED, 0xE7], .cpwXy .ix), ([0xFD, 0xED, 0xF7, 0x67, 0x45], .cpwN 0x4567),
    ([0xDD, 0xED, 0xD7, 0x34, 0x12], .cpwDa 0x1234), ([0xFD, 0xED, 0xC7, 0xDC, 0xFE], .cpwX .ix 0xFEDC),
    ([0xDD, 0xED, 0xF7, 0xAB, 0x89], .cpwRa 0x89AB), ([0xDD, 0xED, 0xC7], .cpwHl), ([0x2B], .decwRr .hl),
    ([0xFD, 0x2B], .decwXy .iy), ([0xDD, 0x0B], .decwHl), ([0xDD, 0x1B, 0x34, 0x12], .decwDa 0x1234),
    ([0xFD, 0x1B, 0xDC, 0xFE], .decwX .iy 0xFEDC), ([0xDD, 0x3B, 0xAB, 0x89], .decwRa 0x89AB)
    ] : List (List Byte × Instr)), decode p.1 = .ok p.2 [] := by decide

theorem test_decode_arith16_2 : ∀ p ∈ ([
    ([0xED, 0xDA], .divwRr .de), ([0xDD, 0xED, 0xEA], .divwXy .ix), ([0xFD, 0xED, 0xFA, 0x67, 0x45], .divwN 0x4567),
    ([0xDD, 0xED, 0xDA, 0x34, 0x12], .divwDa 0x1234), ([0xFD, 0xED, 0xCA, 0xDC, 0xFE], .divwX .ix 0xFEDC),
    ([0xDD, 0xED, 0xFA, 0xAB, 0x89], .divwRa 0x89AB), ([0xDD, 0xED, 0xCA], .divwHl), ([0xED, 0xFB], .divuwRr .sp),
    ([0xFD, 0xED, 0xEB], .divuwXy .iy), ([0xFD, 0xED, 0xFB, 0x67, 0x45], .divuwN 0x4567),
    ([0xDD, 0xED, 0xDB, 0x34, 0x12], .divuwDa 0x1234), ([0xFD, 0xED, 0xDB, 0xDC, 0xFE], .divuwX .iy 0xFEDC),
    ([0xDD, 0xED, 0xFB, 0xAB, 0x89], .divuwRa 0x89AB), ([0xDD, 0xED, 0xCB], .divuwHl), ([0xED, 0x6C], .extsHl),
    ([0x03], .incwRr .bc), ([0xDD, 0x23], .incwXy .ix), ([0xDD, 0x03], .incwHl),
    ([0xDD, 0x13, 0x34, 0x12], .incwDa 0x1234), ([0xFD, 0x03, 0xDC, 0xFE], .incwX .ix 0xFEDC),
    ([0xDD, 0x33, 0xAB, 0x89], .incwRa 0x89AB)
    ] : List (List Byte × Instr)), decode p.1 = .ok p.2 [] := by decide

theorem test_decode_bit : ∀ p ∈ ([
    ([0xCB, 0x72], .bitR 6 .d), ([0xCB, 0x5E], .bitHl 3), ([0xFD, 0xCB, 0x85, 0x76], .bitSx .iy 0x85 6)
    ] : List (List Byte × Instr)), decode p.1 = .ok p.2 [] := by decide

theorem test_decode_control : ∀ p ∈ ([
    ([0xDD, 0xEC], .callCcHl .pe), ([0xDD, 0xCD], .callHl), ([0xD4, 0x34, 0x12], .callCc .nc 0x1234),
    ([0xCD, 0x34, 0x12], .callDa 0x1234), ([0xFD, 0xFC, 0xAB, 0x89], .callCcRa .m 0x89AB),
    ([0xFD, 0xCD, 0xAB, 0x89], .callRa 0x89AB), ([0x3F], .ccf), ([0x10, 0xF7], .djnz 0xF7),
    ([0xDD, 0xCA], .jpCcHl .z), ([0xE9], .jpHl), ([0xDD, 0xE9], .jpXy .ix), ([0xE2, 0x34, 0x12], .jpCc .po 0x1234),
    ([0xC3, 0x34, 0x12], .jpDa 0x1234), ([0xFD, 0xC2, 0xAB, 0x89], .jpCcRa .nz 0x89AB),
    ([0xFD, 0xC3, 0xAB, 0x89], .jpRa 0x89AB), ([0x30, 0xF7], .jrCc .nc 0xF7), ([0x18, 0xF7], .jr 0xF7),
    ([0xDD, 0x28, 0xF7], .jaf 0xF7), ([0xDD, 0x20, 0xF7], .jar 0xF7)
    ] : List (List Byte × Instr)), decode p.1 = .ok p.2 [] := by decide

theorem test_decode_io : ∀ p ∈ ([
    ([0xED, 0x78], .inR .a), ([0xFD, 0xED, 0x60], .inRx .iy .hi), ([0xDD, 0xED, 0x78, 0x34, 0x12], .inDa 0x1234),
    ([0xFD, 0xED, 0x58, 0xDC, 0xFE], .inX .hl 0xFEDC), ([0xFD, 0xED, 0x40, 0xAB, 0x89], .inRa 0x89AB),
    ([0xDD, 0xED, 0x40, 0xDC, 0xFE], .inSr 0xFEDC), ([0xDD, 0xED, 0x58], .inBx .ixIy), ([0xDB, 0x5A], .inAN 0x5A),
    ([0xED, 0xB7], .inw), ([0xED, 0xA2], .ini), ([0xED, 0x82], .iniw), ([0xED, 0xAA], .ind), ([0xED, 0x8A], .indw),
    ([0xED, 0xB2], .inir), ([0xED, 0x92], .inirw), ([0xED, 0xBA], .indr), ([0xED, 0x9A], .indrw)
    ] : List (List Byte × Instr)), decode p.1 = .ok p.2 [] := by decide

theorem test_decode_cpuControl : ∀ p ∈ ([
    ([0xF3], .di), ([0xED, 0x77, 0x23], .diMask 0x23), ([0xFB], .ei), ([0xED, 0x7F, 0x23], .eiMask 0x23),
    ([0x76], .halt), ([0xED, 0x46], .im0), ([0xED, 0x56], .im1), ([0xED, 0x5E], .im2), ([0xED, 0x4E], .im3),
    ([0xED, 0x47], .ldIA), ([0xED, 0x4F], .ldRfA), ([0xED, 0x57], .ldAI), ([0xED, 0x5F], .ldARf),
    ([0xED, 0x66], .ldctlHlC), ([0xDD, 0xED, 0x66], .ldctlXyC .ix), ([0xED, 0x6E], .ldctlCHl),
    ([0xFD, 0xED, 0x6E], .ldctlCXy .iy), ([0xED, 0x87], .ldctlHlUsp), ([0xDD, 0xED, 0x87], .ldctlXyUsp .ix),
    ([0xED, 0x8F], .ldctlUspHl), ([0xFD, 0xED, 0x8F], .ldctlUspXy .iy)
    ] : List (List Byte × Instr)), decode p.1 = .ok p.2 [] := by decide

/-- 95_test_vectors.md B10: no row assigns these. -/
theorem test_decode_unassigned : ∀ bs ∈ ([[0x00], [0xC9], [0xD3], [0xDD, 0xDD], [0xDD, 0x76], [0xFD, 0x7F], [0xED, 0x00],
    [0xCB, 0x00]] : List (List Byte)), decode bs = .unassigned := by decide

/-! ### A small state -/

/-- System mode, PC 0100, SSP 8000, with the given A, F (as a byte), BC, DE and HL. -/
def small (a f : Byte) (bc de hl : Word) : State :=
  (({ State.reset with pc := 0x100, ssp := 0x8000 }).setAF { a := a, f := Flags.ofByte f }).setGP
    { bc := bc, de := de, hl := hl }

/-- A byte of memory given. -/
def State.given (s : State) (a : PhysAddr) (b : Byte) : State := { s with mem := s.mem.set a b }

/-- The same state in user mode. -/
def State.asUser (s : State) : State := { s with msr := 0x4000 }

/-- S, Z, H, P/V, N, C as six digits. -/
def six (t : State) : List Bool := [t.f.s, t.f.z, t.f.h, t.f.pv, t.f.n, t.f.c]

/-- Six digits. -/
def digits (s z h p n c : Nat) : List Bool := [s == 1, z == 1, h == 1, p == 1, n == 1, c == 1]

/-- The outcome is a next state that passes. -/
def goes (o : Out) (p : State → Bool) : Bool :=
  match o with
  | .next t => p t
  | .fault _ => false
  | .refused _ => false

/-- The outcome is a fault of the kind, with a state that passes. -/
def traps (o : Out) (k : TrapKind) (p : State → Bool) : Bool :=
  match o with
  | .next _ => false
  | .fault f => decide (f.kind = k) && (match f.state with | some t => p t | none => true)
  | .refused _ => false

/-- The outcome is that refusal. -/
def refuses (o : Out) (r : Refusal) : Bool :=
  match o with
  | .next _ => false
  | .fault _ => false
  | .refused q => decide (q = r)

/-! ### Vectors of 95_test_vectors.md, one step each -/

theorem test_ld_wraps : goes (exec (.ldSxR .iy .a 0x7F) { small 1 0 0 0 0 with iy := 0xFFF0 })
    (fun t => t.mem.get 0x006F == 1 && t.pc == 0x103) = true := by decide
theorem test_ld_negative_displacement : goes (exec (.ldSxR .ix .b 0xFE) { small 0 0 0x5A00 0 0 with ix := 0x1000 })
    (fun t => t.mem.get 0x0FFE == 0x5A) = true := by decide
theorem test_ld_halves : goes (exec (.ldRxRx .ix .hi .lo) { small 0 0 0 0 0 with ix := 0xAB12 })
    (fun t => t.ix == 0x1212) = true := by decide
theorem test_ld_half_immediate : goes (exec (.ldRxN .iy .lo 0) { small 0 0 0 0 0 with iy := 0xFFFF })
    (fun t => t.iy == 0xFF00) = true := by decide
theorem test_ld_direct : goes (exec (.ldDaN 0x2000 0x33) (small 0 0 0 0 0))
    (fun t => t.mem.get 0x2000 == 0x33 && t.pc == 0x105) = true := by decide
theorem test_ld_base_index_wraps :
    goes (exec (.ldABx .hlIx) (State.given { small 0 0 0 0 0x8000 with ix := 0x8001 } 1 0xC3))
      (fun t => t.a == 0xC3) = true := by decide
theorem test_ld_stack_relative : goes (exec (.ldASr 2) (State.given { small 0 0 0 0 0 with ssp := 0x7FFE } 0x8000 0x21))
    (fun t => t.a == 0x21 && t.ssp == 0x7FFE) = true := by decide
theorem test_ld_relative : goes (exec (.ldARa 0x10) ((small 0 0 0 0 0).given 0x114 0x99))
    (fun t => t.a == 0x99) = true := by decide
theorem test_ex_a_b : goes (exec (.exAR .b) (small 0x03 0 0x8200 0 0))
    (fun t => t.a == 0x82 && t.bc == 0x0300) = true := by decide
theorem test_ex_a_memory : goes (exec .exAHl ((small 0x11 0 0 0 0x3000).given 0x3000 0xEE))
    (fun t => t.a == 0xEE && t.mem.get 0x3000 == 0x11) = true := by decide
theorem test_ex_h_l : goes (exec .exHL (small 0 0 0 0 0x1234)) (fun t => t.hl == 0x3412) = true := by decide
theorem test_ldud : goes (exec .ldudAHl ((small 0x0F 0x01 0 0 0x8D07).given 0x8D07 0x55))
    (fun t => t.a == 0x55 && t.f.c == false) = true := by decide
theorem test_ldud_user : traps (exec .ldudAHl (small 0 0 0 0 0).asUser) .privilegedInstruction
    (fun t => t.a == 0) = true := by decide
theorem test_ldw_sp : goes (exec (.ldwRrN .sp 0x8000) { small 0 0 0 0 0 with ssp := 0x1234, usp := 7 })
    (fun t => t.ssp == 0x8000 && t.usp == 7) = true := by decide
theorem test_ldw_wraps : goes (exec (.ldwHlN 0xFFFF) (small 0 0 0 0 0xFFFF))
    (fun t => t.mem.get 0xFFFF == 0xFF && t.mem.get 0 == 0xFF) = true := by decide
theorem test_ldw_byte_order : goes (exec (.ldwHlN 0x3825) (small 0 0 0 0 0x2391))
    (fun t => t.mem.get 0x2391 == 0x25 && t.mem.get 0x2392 == 0x38) = true := by decide
theorem test_lda : goes (exec (.ldaHlX .ix 4) { small 0 0 0 0 0x2308 with ix := 0xE324 })
    (fun t => t.hl == 0xE328) = true := by decide
theorem test_lda_index : goes (exec (.ldaXyX .ix .iy 0xFFFE) { small 0 0 0 0 0 with iy := 1 })
    (fun t => t.ix == 0xFFFF && t.pc == 0x105) = true := by decide
theorem test_ex_de_hl : goes (exec .exDeHl (small 0 0 0 0x82E0 0x38FF))
    (fun t => t.de == 0x38FF && t.hl == 0x82E0) = true := by decide
theorem test_ex_sp_hl :
    goes (exec .exSpHl ((State.given { small 0 0 0 0 0x2193 with ssp := 0x8200 } 0x8200 0x2A).given 0x8201 0xB3))
      (fun t => t.hl == 0xB32A && t.mem.get 0x8200 == 0x93 && t.mem.get 0x8201 == 0x21) = true := by decide
theorem test_ex_af_af : goes (exec .exAfAf { small 0x23 0xF3 0 0 0
    with bankAF1 := { a := 0x10, f := Flags.ofByte 0xB0 } })
    (fun t => t.a == 0x10 && t.f.toByte == 0xB0 && t.afAlt.a == 0x23 && t.afAlt.f.toByte == 0xF3) = true := by decide
theorem test_exx :
    goes (exec .exx { small 0 0 0x23A0 0x1653 0x24FF with bankGP1 := { bc := 0x380F, de := 0xE200, hl := 0x1FA3 } })
      (fun t => t.bc == 0x380F && t.hl == 0x1FA3 && t.gpAlt.de == 0x1653) = true := by decide
theorem test_ldi : goes (exec .ldi ((small 0 0 7 0x2222 0x1111).given 0x1111 0x88))
    (fun t => t.hl == 0x1112 && t.de == 0x2223 && t.bc == 6 && t.f.pv && t.mem.get 0x2222 == 0x88) = true := by decide
theorem test_ldd_last : goes (exec .ldd ((small 0 0x16 1 0x2222 0x1111).given 0x1111 0x88))
    (fun t => t.hl == 0x1110 && t.de == 0x2221 && six t == digits 0 0 0 0 0 0) = true := by decide
theorem test_ldir_repeats : goes (exec .ldir ((small 0 0 3 0x1001 0x1000).given 0x1000 0xAA))
    (fun t => t.pc == 0x100 && t.bc == 2 && t.mem.get 0x1001 == 0xAA) = true := by decide
theorem test_cpi_no_match : goes (exec .cpi ((small 0 0 2 0 0x2000).given 0x2000 1))
    (fun t => six t == digits 1 0 1 1 1 0 && t.hl == 0x2001) = true := by decide
theorem test_cpd : goes (exec .cpd ((small 0x3B 1 1 0 0x1215).given 0x1215 0x3B))
    (fun t => six t == digits 0 1 0 0 1 1 && t.hl == 0x1214 && t.bc == 0) = true := by decide
theorem test_cpir_match_ends : goes (exec .cpir ((small 0xF3 0 5 0 0x111A).given 0x111A 0xF3))
    (fun t => t.pc == 0x102 && t.hl == 0x111B && t.bc == 4) = true := by decide
theorem test_adc_byte : goes (exec .adcAHl ((small 0x48 1 0 0 0x2454).given 0x2454 0x18))
    (fun t => t.a == 0x61 && six t == digits 0 0 1 0 0 0) = true := by decide
theorem test_add_byte : goes (exec .addAHl ((small 0x48 1 0 0 0x2454).given 0x2454 0x18))
    (fun t => t.a == 0x60 && six t == digits 0 0 1 0 0 0) = true := by decide
theorem test_and : goes (exec .andAHl ((small 0x48 3 0 0 0x2454).given 0x2454 0x18))
    (fun t => t.a == 0x08 && six t == digits 0 0 1 0 0 0) = true := by decide
theorem test_cp : goes (exec .cpAHl ((small 0x48 0 0 0 0x2454).given 0x2454 0x18))
    (fun t => t.a == 0x48 && six t == digits 0 0 0 0 1 0) = true := by decide
theorem test_cpl : goes (exec .cpl (small 0x28 0 0 0 0))
    (fun t => t.a == 0xD7 && six t == digits 0 0 1 0 1 0) = true := by decide
theorem test_daa : goes (exec .daa (small 0x28 1 0 0 0))
    (fun t => t.a == 0x88 && six t == digits 1 0 0 1 0 1) = true := by decide
theorem test_dec_memory : goes (exec .decHl ((small 0 1 0 0 0x2454).given 0x2454 0x88))
    (fun t => t.mem.get 0x2454 == 0x87 && six t == digits 1 0 0 0 1 1) = true := by decide
theorem test_inc_memory : goes (exec .incHl ((small 0 0 0 0 0x2454).given 0x2454 0x88))
    (fun t => t.mem.get 0x2454 == 0x89 && six t == digits 1 0 0 0 0 0) = true := by decide
theorem test_div : goes (exec (.divR .c) (small 0x55 0 0xFE 0 0xFFFD))
    (fun t => t.a == 1 && t.hl == 0xFFFF && six t == digits 0 0 0 0 0 0) = true := by decide
theorem test_divu : goes (exec (.divuR .c) (small 0x55 0 2 0 0x0101))
    (fun t => t.a == 0x80 && t.hl == 0x0101 && six t == digits 0 0 0 0 0 0) = true := by decide
theorem test_exts_a : goes (exec .extsA (small 0x82 0 0 0 0x5555)) (fun t => t.hl == 0xFF82) = true := by decide
theorem test_adc_word : goes (exec (.adcHlRr .bc) (small 0 1 0x2308 0 0xF038))
    (fun t => t.hl == 0x1341 && six t == digits 0 0 0 0 0 1) = true := by decide
theorem test_adc_word_overflow : goes (exec (.adcHlRr .bc) (small 0 1 0 0 0x7FFF))
    (fun t => t.hl == 0x8000 && six t == digits 1 0 1 1 0 0) = true := by decide
theorem test_add_word : goes (exec (.addHlRr .hl) (small 0 0xD7 0 0 0xA123))
    (fun t => t.hl == 0x4246 && six t == digits 1 1 0 1 0 1) = true := by decide
theorem test_add_accumulator : goes (exec .addHlA (small 0xE2 0 0 0 0x2384))
    (fun t => t.hl == 0x2366 && six t == digits 0 0 1 0 0 1) = true := by decide
theorem test_addw : goes (exec (.addwN 0x8000) (small 0 0 0 0 0x8000))
    (fun t => t.hl == 0 && six t == digits 0 1 0 1 0 1) = true := by decide
theorem test_cpw : goes (exec (.cpwN 1) (small 0 0 0 0 0x8000))
    (fun t => t.hl == 0x8000 && six t == digits 0 0 1 1 1 0) = true := by decide
theorem test_decw_memory : goes (exec .decwHl ((small 0 0 0 0 0x5000).given 0x5001 1))
    (fun t => t.mem.get 0x5000 == 0xFF && t.mem.get 0x5001 == 0) = true := by decide
theorem test_incw_sp : goes (exec (.incwRr .sp) { small 0 0 0 0 0 with ssp := 0xFFFF })
    (fun t => t.ssp == 0) = true := by decide
theorem test_exts_hl : goes (exec .extsHl (small 0 0 0 0x032F 0xEF30))
    (fun t => t.de == 0xFFFF && t.hl == 0xEF30) = true := by decide
theorem test_divw : goes (exec (.divwN 7) (small 0 0 0 0xFFFF 0xFF9C))
    (fun t => t.hl == 0xFFF2 && t.de == 0xFFFE && six t == digits 1 0 0 0 0 0) = true := by decide
theorem test_divw_overflow : traps (exec (.divwRr .bc) (small 0 0 0xFFFF 0x8000 0)) .divisionException
    (fun t => six t == digits 0 0 0 1 0 0 && t.de == 0x8000) = true := by decide
theorem test_divuw : goes (exec (.divuwN 6) (small 0 0 0 0 0x22))
    (fun t => t.hl == 5 && t.de == 4) = true := by decide
theorem test_divuw_zero : traps (exec (.divuwRr .bc) (small 0 0 0 0x1111 0x2222)) .divisionException
    (fun t => six t == digits 0 1 0 1 0 0 && t.hl == 0x2222) = true := by decide
theorem test_bit : goes (exec (.bitSx .iy 0xFF 3) (State.given { small 0 2 0 0 0 with iy := 0x3001 } 0x3000 8))
    (fun t => six t == digits 0 0 1 0 0 0) = true := by decide
theorem test_call : goes (exec (.callDa 0x2520) { small 0 0 0 0 0 with pc := 0x1630, ssp := 0xFF26 })
    (fun t => t.pc == 0x2520 && t.ssp == 0xFF24 && t.mem.get 0xFF24 == 0x33 && t.mem.get 0xFF25 == 0x16) = true := by decide
theorem test_call_wraps : goes (exec .callHl { small 0 0 0 0 0x4000 with ssp := 1 })
    (fun t => t.ssp == 0xFFFF && t.mem.get 0xFFFF == 2 && t.mem.get 0 == 1) = true := by decide
theorem test_call_warns : traps (exec (.callDa 0x2000) { small 0 0 0 0 0 with tcr := 4, cfg :=
      { Platform.default with stackWarn := [(0x7FFE, 0)] } }) .systemStackOverflowWarning
    (fun t => t.pc == 0x2000 && t.ssp == 0x7FFE) = true := by decide
theorem test_ccf : goes (exec .ccf (small 0 0xD7 0 0 0)) (fun t => six t == digits 1 1 1 1 0 0) = true := by decide
theorem test_djnz_taken : goes (exec (.djnz 0xD8) { small 0 0 0x1200 0 0 with pc := 0x1076 })
    (fun t => t.pc == 0x1050 && t.bc == 0x1100) = true := by decide
theorem test_djnz_ends : goes (exec (.djnz 0xFE) (small 0 0 0x0100 0 0)) (fun t => t.pc == 0x102) = true := by decide
theorem test_jp_cc : goes (exec (.jpCc .c 0x5000) (small 0 1 0 0 0)) (fun t => t.pc == 0x5000) = true := by decide
theorem test_jp_relative_wraps : goes (exec (.jpRa 0) { small 0 0 0 0 0 with pc := 0xFFFC })
    (fun t => t.pc == 0) = true := by decide
theorem test_jr_backward : goes (exec (.jrCc .c 0x80) (small 0 1 0 0 0)) (fun t => t.pc == 0x82) = true := by decide
theorem test_jaf : goes (exec (.jaf 0x17) { small 0 0 0 0 0 with pc := 0x4FE6, afSel := true })
    (fun t => t.pc == 0x5000) = true := by decide
theorem test_jar_primary : goes (exec (.jar 0xD7) { small 0 0 0 0 0 with pc := 0x42F6 })
    (fun t => t.pc == 0x42F9) = true := by decide
theorem test_in_address : goes (exec (.inR .l) { small 0 0 0x1650 0 0 with iop := 0x11 })
    (fun t => t.ioTrace.map (·.addr) == [0x111650] && t.bc == 0x1650) = true := by decide
theorem test_in_a_address : goes (exec (.inAN 0x66) { small 0x42 0 0 0 0 with iop := 0x11 })
    (fun t => t.ioTrace.map (·.addr) == [0x114266]) = true := by decide
theorem test_inw_registers : goes (exec .inw { small 0 0 0x2650 0 0 with iop := 0x10 })
    (fun t => t.ioTrace.map (·.width) == [.word] && t.pc == 0x102) = true := by decide
theorem test_ini_last : goes (exec .ini (small 0 0 0x0110 0 0xFFFF))
    (fun t => t.hl == 0 && t.bc == 0x0010 && t.f.z && t.f.n) = true := by decide
theorem test_inir_repeats : goes (exec .inir (small 0 0 0x0210 0 0x4000))
    (fun t => t.hl == 0x4001 && t.pc == 0x100 && !t.f.z) = true := by decide
theorem test_indw : goes (exec .indw { small 0 0 0x1564 0 0x5002 with iop := 0x33 })
    (fun t => t.hl == 0x5000 && t.bc == 0x1464) = true := by decide
theorem test_iniw_byte_bus : refuses (exec .iniw { small 0 0 0 0 0 with iop := 0x10, cfg :=
      { Platform.default with bus16 := false } }) .wordInputOnByteBus = true := by decide
theorem test_in_user_inhibited : traps (exec (.inAN 0) { (small 0 0 0 0 0).asUser with tcr := 1 })
    .privilegedInstruction (fun t => t.ioTrace == []) = true := by decide
theorem test_di : goes (exec .di { small 0 0 0 0 0 with msr := 0x207F }) (fun t => t.msr == 0x2000) = true := by decide
theorem test_di_mask : goes (exec (.diMask 0x23) { small 0 0 0 0 0 with msr := 0x7F })
    (fun t => t.msr == 0x5C) = true := by decide
theorem test_di_bit_seven : refuses (exec (.diMask 0x80) (small 0 0 0 0 0)) .maskBitSeven = true := by decide
theorem test_di_bit_seven_user : traps (exec (.diMask 0x80) (small 0 0 0 0 0).asUser) .privilegedInstruction
    (fun _ => true) = true := by decide
theorem test_ei_mask : goes (exec (.eiMask 0x49) (small 0 0 0 0 0))
    (fun t => t.msr == 0x49 && t.eiShadow) = true := by decide
theorem test_im : goes (exec .im3 { small 0 0 0 0 0 with isr := 0xF000 })
    (fun t => t.isr == 0xF300) = true := by decide
theorem test_ld_i_a : goes (exec .ldIA { small 0x0D 0 0 0 0 with i := 0x22 })
    (fun t => t.i == 0x0D) = true := by decide
theorem test_ld_a_r : goes (exec .ldARf { small 0x10 0 0 0 0 with r := 0x42, msr := 0x7F })
    (fun t => t.a == 0x42 && six t == digits 0 0 0 1 0 0) = true := by decide
theorem test_ldctl_write : goes (exec .ldctlCHl (small 0 0 8 0 0x553A)) (fun t => t.iop == 0x3A) = true := by decide
theorem test_ldctl_read : goes (exec .ldctlHlC { small 0 0 4 0 0 with slr := 0x8010 })
    (fun t => t.hl == 0x8010) = true := by decide
theorem test_ldctl_no_register : refuses (exec .ldctlHlC (small 0 0 3 0 0)) .noControlRegister = true := by decide
theorem test_ldctl_isr_write : refuses (exec .ldctlCHl (small 0 0 0x16 0 0)) .interruptStatusWrite = true := by decide
theorem test_ldctl_usp : goes (exec .ldctlUspHl (small 0 0 0 0 0x7000))
    (fun t => t.usp == 0x7000 && t.ssp == 0x8000) = true := by decide
theorem test_halt : goes (exec .halt (small 0 0 0 0 0)) (fun t => t.halted && t.pc == 0x101) = true := by decide
theorem test_halt_breakpoint : traps (exec .halt { small 0 0 0 0 0 with msr := 0x1000 }) .breakpointOnHalt
    (fun t => !t.halted) = true := by decide

/-! ### The step -/

/-- A step from reset with an instruction placed where it fetches. -/
theorem test_step_fetches : goes (step ((small 0 0 0 0 0x2000).withFetchWord 16 0x5A36))
    (fun t => t.mem.get 0x2000 == 0x5A && t.pc == 0x102) = true := by decide
theorem test_step_unassigned : refuses (step (small 0 0 0 0 0)) .unassignedEncoding = true := by decide
theorem test_step_single : traps (step { small 0 0 0 0 0 with msr := 0x0100 }) .singleStep (fun _ => true) = true := by
  decide
theorem test_step_written_code : refuses (step { small 0 0 0 0 0 with written := [0x100] })
    .writtenCodeFetched = true := by
  decide
theorem test_step_violation : traps (step (State.given { small 7 0 0 0 0x2000 with cfg := { Platform.default with
      translate := [⟨⟨.system, .data⟩, .read, 0x2000, .violation false true⟩] } } 0x100 0x7E)) .accessViolation
    (fun t => t.a == 7 && t.pc == 0x100) = true := by decide

/-! ### The launch premises (70_reset_and_hazards.md R371) -/

theorem test_launch_needs_empty_trace_and_written : State.reset.launchable = true
    ∧ { State.reset with written := [0] }.launchable = false
    ∧ { State.reset with ioTrace := [⟨0, .byte, 0⟩] }.launchable = false := by decide
theorem test_launch_premises : { State.reset with msr := 0x4000 }.premiseSys = false
    ∧ { State.reset with cfg := { Platform.default with
      translate := [⟨⟨.system, .data⟩, .read, 1, .phys 2⟩] } }.premiseMmu = false
    ∧ { State.reset with tcr := 4, cfg := { Platform.default with stackWarn := [(0, 0)] } }.premiseNoWarn = false
    ∧ { State.reset with cfg := { Platform.default with bus16 := false } }.premiseBus = false := by decide

/-! ### Every statement with hypotheses meets them somewhere -/

/-- BC 0002, DE 2000, HL 1000, A 12: the state of most witnesses. -/
def wit : State := small 0x12 0 2 0x2000 0x1000

/-- A program counter whose bytes are given. -/
def coded (s : State) (bs : List Byte) : State := { s.placeBytes 0 bs with halted := false }

/-- `wit` where one access violates. -/
def broken (acc : Access) (a : Word) : State :=
  { wit with cfg := { Platform.default with
      translate := [⟨⟨.system, .data⟩, acc, a, .violation true false⟩, ⟨⟨.user, .data⟩, acc, a, .violation true false⟩,
        ⟨⟨.system, .program⟩, acc, a, .violation true false⟩] } }

/-- `wit` where some physical addresses hold no memory. -/
def holed (first last : PhysAddr) : State := { wit with cfg := { Platform.default with holes := [⟨first, last⟩] } }

theorem witness_DecodeEncodeRoundTrip : (Instr.ldGRx .ix .a .hi).wellFormed = true := rfl
theorem witness_EncodeDecodeRoundTrip : decode [0xDD, 0x7C, 0x00] = .ok (.ldGRx .ix .a .hi) [0x00] := by decide
theorem witness_StepRunsDecodedInstruction :
    (Instr.ldHlN 0x5A).wellFormed = true ∧ (coded wit [0x36, 0x5A]).halted = false
      ∧ (coded wit [0x36, 0x5A]).msr.getLsbD (coded wit [0x36, 0x5A]).cfg.msrSS = false
      ∧ ∀ (k : Nat) (h : k < (encode (.ldHlN 0x5A)).length),
        (coded wit [0x36, 0x5A]).fetchByte k = .byte ((encode (.ldHlN 0x5A))[k]) :=
  ⟨rfl, rfl, rfl, fun k h => match k, h with | 0, _ => rfl | 1, _ => rfl⟩
theorem witness_FetchStops :
    (wit.halted = false ∧ wit.msr.getLsbD wit.cfg.msrSS = false ∧ decode [] = .short)
      ∧ (broken .fetch 0x100).translateAt (broken .fetch 0x100).curProg .fetch ((broken .fetch 0x100).pc + 0)
        = .violation true false
      ∧ (holed 0x100 0x100).isMemory 0x100 = false
      ∧ { wit with written := [0x100] }.wasWritten 0x100 = true
      ∧ (wit.isMemory 0x100 = true ∧ wit.wasWritten 0x100 = false
          ∧ decode ([] ++ [wit.mem.get 0x100]) = .unassigned) := by
  decide
theorem witness_FetchStops_inside : (coded wit [0xDD]).fetchByte 0 = .byte 0xDD ∧ decode [0xDD] = .short
    ∧ (coded wit [0xDD]).translateAt wit.curProg .fetch ((coded wit [0xDD]).pc + 1) = .phys 0x101
    ∧ decode [0xDD, (coded wit [0xDD]).mem.get 0x101] = .unassigned := by decide
theorem witness_HaltedAndSingleStep : { wit with halted := true }.halted = true
    ∧ (wit.halted = false ∧ ({ wit with msr := 0x0100 } : State).msr.getLsbD wit.cfg.msrSS = true) := by decide
theorem witness_StepKeepsInvariant : (coded wit [0x36, 0x5A]).inv = true
    ∧ goes (step (coded wit [0x36, 0x5A])) (fun t => t.mem.get 0x1000 != 0) = true := by decide
theorem witness_UserModeConfined : (coded wit.asUser [0xDB, 0x10]).mode = .user
    ∧ goes (step (coded wit.asUser [0xDB, 0x10])) (fun t => t.ioTrace != []) = true
    ∧ goes (step (coded { wit.asUser with tcr := 1 } [0x36, 0x5A]))
        (fun t => t.tcr.getLsbD t.cfg.tcrI) = true := by decide
theorem witness_StepIsMonotone : wit.mem.wf = true
    ∧ goes (step (coded wit [0x36, 0x5A])) (fun t => t.mem.get 0x1000 != wit.mem.get 0x1000 && t.wasWritten 0x1000) = true
    ∧ goes (step (coded { wit with written := [5] } [0x36, 0x5A])) (fun t => t.wasWritten 5) = true := by decide
theorem witness_PrivilegedTrapsInUserMode : wit.asUser.mode = .user ∧ alwaysPrivileged .halt = true
    ∧ isInput .inw = true ∧ ({ wit.asUser with tcr := 1 } : State).tcr.getLsbD wit.cfg.tcrI = true := by decide
theorem witness_AccessViolationRestores :
    traps (step (coded (broken .write 0x1000) [0xED, 0xA2])) .accessViolation (fun f => f.ioTrace.length == 1) = true
      ∧ (isInput .ldi = false ∧ traps (exec .ldi (broken .write 0x2000)) .accessViolation (fun f => f.ioTrace == []) = true) := by
  decide
theorem witness_TrapsByInstruction : traps (exec (.divN 0) wit) .divisionException (fun _ => true) = true
    ∧ traps (exec .halt wit.asUser) .privilegedInstruction (fun _ => true) = true
    ∧ traps (exec .halt { wit with msr := 0x1000 }) .breakpointOnHalt (fun _ => true) = true
    ∧ traps (exec .ldi (broken .read 0x1000)) .accessViolation (fun _ => true) = true
    ∧ traps (exec .callHl { wit with tcr := 4, cfg := { Platform.default with stackWarn := [(0x7FFE, 0)] } })
      .systemStackOverflowWarning (fun _ => true) = true := by decide
theorem witness_TrapsByInstruction_read : Accesses (broken .read 0x1000) .ldi
      ([] ++ ⟨⟨.system, .data⟩, .read, 0x1000⟩ :: [⟨⟨.system, .data⟩, .write, 0x2000⟩])
    ∧ (∀ (len : Nat) (k : Kind) (m : MemOperand), ¬UserLoadForm .ldi len k m ∧ ¬UserStoreForm .ldi len k m)
    ∧ (broken .read 0x1000).translateAt ⟨.system, .data⟩ .read 0x1000 = .violation true false ∧ isInput .ldi = false :=
  ⟨.blockLoad .ldi, fun _ _ _ => ⟨nofun, nofun⟩, by decide⟩
theorem witness_TrapsByInstruction_write : Accesses (broken .write 0x2000) .ldi
      ([⟨⟨.system, .data⟩, .read, 0x1000⟩] ++ ⟨⟨.system, .data⟩, .write, 0x2000⟩ :: [])
    ∧ (broken .write 0x2000).translateAt ⟨.system, .data⟩ .write 0x2000 = .violation true false
    ∧ (broken .write 0x2000).reach ⟨.system, .data⟩ .read 0x1000 = .ok 0x1000 :=
  ⟨.blockLoad .ldi, by decide⟩
theorem witness_TrapsByInstruction_input : Accesses (broken .write 0x1001) .iniw
      ([⟨⟨.system, .data⟩, .write, 0x1000⟩] ++ ⟨⟨.system, .data⟩, .write, 0x1001⟩ :: [])
    ∧ (broken .write 0x1001).translateAt ⟨.system, .data⟩ .write 0x1001 = .violation true false
    ∧ (broken .write 0x1001).reach ⟨.system, .data⟩ .write 0x1000 = .ok 0x1000
    ∧ (broken .write 0x1001).mode = .system ∧ (broken .write 0x1001).cfg.bus16 = true :=
  ⟨.blockInputWord .iniw, by decide⟩
theorem witness_RefusalsByInstruction : refuses (exec .ldi (holed 0x2000 0x2000)) .noMemoryThere = true
    ∧ refuses (exec (.eiMask 0x80) wit) .maskBitSeven = true
    ∧ refuses (exec .ldctlHlC { wit with bankGP0 := ⟨0x15, 0, 0⟩ }) .noControlRegister = true
    ∧ refuses (exec .ldctlCHl { wit with bankGP0 := ⟨0x16, 0, 0⟩ }) .interruptStatusWrite = true
    ∧ refuses (exec .daa { wit with bankAF0 := ⟨0xFF, Flags.ofByte 0x13⟩ }) .daaOutsideTable = false
    ∧ refuses (exec .daa { wit with bankAF0 := ⟨0x00, Flags.ofByte 0x12⟩ }) .daaOutsideTable = true
    ∧ refuses (exec .indrw { wit with cfg := { Platform.default with bus16 := false } }) .wordInputOnByteBus = true := by
  decide
theorem witness_WordsAreLittleEndian : wit.mem.wf = true ∧ wit.cfg.translate = [] ∧ wit.cfg.holes = []
    ∧ (0x0001 : Word) ≠ 0xFFFF ∧ (0x0001 : Word) ≠ 0xFFFF + 1 := by decide
theorem witness_LoadByteResult : LoadForm (.ldDaN 0xFFFF 0x33) 5 (.mem (.da 0xFFFF)) (.imm 0x33) ∧ wit.mem.wf = true
    ∧ rd8 5 (.imm 0x33) wit = .ok 0x33 ∧ Writable8 5 (.mem (.da 0xFFFF)) wit :=
  ⟨.ldDaN _ _, rfl, rfl, 0xFFFF, by decide⟩
theorem witness_ExchangeAccumulatorResult : ExchangeAForm .exAHl 2 (.mem (.ir .hl)) ∧ wit.mem.wf = true
    ∧ rdLoc8 2 (.mem (.ir .hl)) wit = .ok 0 ∧ Writable8 2 (.mem (.ir .hl)) wit :=
  ⟨.exAHl, rfl, by decide, 0x1000, by decide⟩
theorem witness_UserSpaceLoad : UserLoadForm .ldudAHl 2 .data (.ir .hl) ∧ wit.mode = .system
    ∧ (wit.translateAt ⟨.user, .data⟩ .read (ea 2 (.ir .hl) wit) = .phys 0x1000 ∧ wit.isMemory 0x1000 = true)
    ∧ (holed 0x1000 0x1000).isMemory 0x1000 = false
    ∧ (broken .read 0x1000).translateAt ⟨.user, .data⟩ .read (ea 2 (.ir .hl) wit) = .violation true false :=
  ⟨.ldudAHl, by decide⟩
theorem witness_UserSpaceStore : UserStoreForm .ldudHlA 2 .data (.ir .hl) ∧ wit.mode = .system ∧ wit.mem.wf = true
    ∧ (wit.translateAt ⟨.user, .data⟩ .write (ea 2 (.ir .hl) wit) = .phys 0x1000 ∧ wit.isMemory 0x1000 = true)
    ∧ (holed 0x1000 0x1000).isMemory 0x1000 = false
    ∧ (broken .write 0x1000).translateAt ⟨.user, .data⟩ .write (ea 2 (.ir .hl) wit) = .violation true false :=
  ⟨.ldudHlA, by decide⟩
theorem witness_ExchangeWithHL : ExchangeHLForm (.exXyHl .iy) 2 (reg16OfXY .iy) := .exXyHl .iy
theorem witness_ExchangeStackTop : StackTopForm .exSpHl 1 .hl ∧ wit.mem.wf = true
    ∧ wit.reach wit.curData .read wit.sp = .ok 0x8000 ∧ wit.reach wit.curData .read (wit.sp + 1) = .ok 0x8001
    ∧ wit.reach wit.curData .write wit.sp = .ok 0x8000 ∧ wit.reach wit.curData .write (wit.sp + 1) = .ok 0x8001 :=
  ⟨.exSpHl, by decide⟩
theorem witness_LoadAddressResult : LoadAddressForm (.ldaXyRa .ix 0xFFFB) 5 (reg16OfXY .ix) (.ra 0xFFFB) := .ldaXyRa _ _
theorem witness_LoadImmediateWord : LoadWordForm (.ldwDaN 0xFFFF 0x1234) 6 (.mem (.da 0xFFFF)) 0x1234
    ∧ wit.mem.wf = true ∧ Writable16 6 (.mem (.da 0xFFFF)) wit :=
  ⟨.ldwDaN _ _, rfl, ⟨0xFFFF, by decide⟩, 0x0000, by decide⟩
theorem witness_BlockTransferIteration : BlockLoadForm .lddr .dec true ∧ wit.mem.wf = true
    ∧ wit.reach wit.curData .read wit.hl = .ok 0x1000 ∧ wit.reach wit.curData .write wit.de = .ok 0x2000
    ∧ wit.bc ≠ 1 ∧ (small 0 0 1 0 0).bc = 1 := ⟨.lddr, by decide⟩
theorem witness_BlockSearchIteration : BlockCompareForm .cpir .inc true
    ∧ wit.reach wit.curData .read wit.hl = .ok 0x1000 ∧ (wit.bc ≠ 1 ∧ wit.a ≠ wit.mem.get 0x1000)
    ∧ (small 0 0 1 0 0).bc = 1 ∧ (small 0 0 2 0 0).a = (small 0 0 2 0 0).mem.get 0 := ⟨.cpir, by decide⟩
theorem witness_LdirCopiesTheBlock : wit.mem.wf = true ∧ wit.cfg.translate = [] ∧ wit.cfg.holes = []
    ∧ wit.bc = BitVec.ofNat 16 2
    ∧ ∀ j k : Fin 2, j < k → wit.de + BitVec.ofNat 16 j ≠ wit.hl + BitVec.ofNat 16 k := by decide
theorem witness_LdirCopiesTheBlock_whole : (small 0 0 0 0x1000 0x1000).bc = BitVec.ofNat 16 65536
    ∧ ∀ j k : Nat, j < k → k < 65536 →
      (small 0 0 0 0x1000 0x1000).de + BitVec.ofNat 16 j ≠ (small 0 0 0 0x1000 0x1000).hl + BitVec.ofNat 16 k := by
  refine ⟨rfl, fun j k hjk hk h => ?_⟩
  have hd : (small 0 0 0 0x1000 0x1000).de = 0x1000 := rfl
  have hh : (small 0 0 0 0x1000 0x1000).hl = 0x1000 := rfl
  rw [hd, hh] at h
  bv_omega
theorem witness_AddByteResult : Alu8Form .adc (.adcAN 0xFF) 2 (.imm 0xFF) ∧ rd8 2 (.imm 0xFF) wit = .ok 0xFF
    ∧ false = (decide (Alu8.adc = .adc) && wit.f.c) ∧ Alu8Form .add (.addAHl) 1 (.loc (.mem (.ir .hl)))
    ∧ rd8 1 (.loc (.mem (.ir .hl))) wit = .ok 0 := ⟨.adcAN _, rfl, by decide, .addAHl, by decide⟩
theorem witness_AndByteResult : Alu8Form .and .andAHl 1 (.loc (.mem (.ir .hl)))
    ∧ rd8 1 (.loc (.mem (.ir .hl))) wit = .ok 0 := ⟨.andAHl, by decide⟩
theorem witness_CompareByteResult : Alu8Form .cp .cpAHl 1 (.loc (.mem (.ir .hl)))
    ∧ rd8 1 (.loc (.mem (.ir .hl))) wit = .ok 0 := ⟨.cpAHl, by decide⟩
theorem witness_DecimalAdjustResult :
    (⟨false, false, 0x9, 0xF, false, 0xA, 0xF, 0x66, true, true⟩ : DaaRow) ∈ daaTable
      ∧ DaaRow.hits ⟨false, false, 0x9, 0xF, false, 0xA, 0xF, 0x66, true, true⟩ (Flags.ofByte 0) 0x9A = true
      ∧ ∀ row ∈ daaTable, row.hits (Flags.ofByte 0x12) 0x00 = false := by decide
theorem witness_DecimalAdjustMakesBcdSums :
    ((small 0x33 0x11 0 0 0).a = (add8 0x99 0x99 true).res ∧ BitVec.ofNat 8 (99 / 10 * 16 + 99 % 10) = (0x99 : Byte))
      ∧ (small 0x33 0x11 0 0 0).f.n = false ∧ (small 0x33 0x11 0 0 0).f.h = (add8 0x99 0x99 true).h
      ∧ (small 0x33 0x11 0 0 0).f.c = (add8 0x99 0x99 true).c := by decide
theorem witness_CountByteResult : Count8Form .dec .decHl 1 (.mem (.ir .hl)) ∧ wit.mem.wf = true
    ∧ rdLoc8 1 (.mem (.ir .hl)) wit = .ok 0 ∧ Writable8 1 (.mem (.ir .hl)) wit
        := ⟨.decHl, rfl, by decide, 0x1000, by decide⟩
theorem witness_DivideByteSigned : Alu8Form .div (.divN 0xFF) 4 (.imm 0xFF)
    ∧ (Int.tdiv (small 0 0 0 0 0x0080).hl.toInt (0xFF : Byte).toInt = -128)
    ∧ (Int.tdiv (small 0 0 0 0 0xFF81).hl.toInt (0xFF : Byte).toInt = 127)
    ∧ (Int.tdiv (small 0 0 0 0 0x0081).hl.toInt (0xFF : Byte).toInt = -129)
    ∧ (Int.tdiv (small 0 0 0 0 0xFF80).hl.toInt (0xFF : Byte).toInt = 128)
    ∧ rd8 4 (.imm 0) wit = .ok 0 := ⟨.divN _, by decide⟩
theorem witness_DivideByteUnsigned : Alu8Form .divu (.divuN 0x11) 4 (.imm 0x11)
    ∧ (wit.reg8 .h).toNat < (0x11 : Byte).toNat ∧ (0x10 : Byte).toNat ≤ (wit.reg8 .h).toNat
    ∧ rd8 4 (.imm 0) wit = .ok 0 := ⟨.divuN _, by decide⟩
theorem witness_AddWordRegisters : AddWordForm .adc (.adcHlRr .sp) 2 .hl .sp
    ∧ false = (decide (AddKind.adc = .adc) && wit.f.c) := ⟨.adcHlRr .sp, by decide⟩
theorem witness_AddAccumulatorResult : AddAccumulatorForm .addHlA 2 .hl := .addHlA
theorem witness_AddAndCompareWord : Alu16Form .addw .addwHl 3 (.loc (.mem (.ir .hl)))
    ∧ Alu16Form .cpw .cpwHl 3 (.loc (.mem (.ir .hl))) ∧ rd16 3 (.loc (.mem (.ir .hl))) wit = .ok 0 :=
  ⟨.addwHl, .cpwHl, by decide⟩
theorem witness_CountWordResult : Count16Form .inc .incwHl 2 (.mem (.ir .hl)) ∧ wit.mem.wf = true
    ∧ rdLoc16 2 (.mem (.ir .hl)) wit = .ok 0 ∧ Writable16 2 (.mem (.ir .hl)) wit :=
  ⟨.incwHl, rfl, by decide, ⟨0x1000, by decide⟩, 0x1001, by decide⟩
theorem witness_DivideWordSigned : Alu16Form .divw (.divwN 0xFFFF) 5 (.imm 0xFFFF)
    ∧ (Int.tdiv ((small 0 0 0 0x0000 0x8000).de.toInt * 65536 + (small 0 0 0 0x0000 0x8000).hl.toNat)
        (0xFFFF : Word).toInt = -32768)
    ∧ (Int.tdiv ((small 0 0 0 0xFFFF 0x8001).de.toInt * 65536 + (small 0 0 0 0xFFFF 0x8001).hl.toNat)
        (0xFFFF : Word).toInt = 32767)
    ∧ (Int.tdiv ((small 0 0 0 0xFFFF 0x8000).de.toInt * 65536 + (small 0 0 0 0xFFFF 0x8000).hl.toNat)
        (0xFFFF : Word).toInt = 32768)
    ∧ rd16 5 (.imm 0) wit = .ok 0 := ⟨.divwN _, by decide⟩
theorem witness_DivideWordUnsigned : Alu16Form .divuw (.divuwN 0x2001) 5 (.imm 0x2001)
    ∧ wit.de.toNat < (0x2001 : Word).toNat ∧ (0x2000 : Word).toNat ≤ wit.de.toNat ∧ rd16 5 (.imm 0) wit = .ok 0 :=
  ⟨.divuwN _, by decide⟩
theorem witness_BitTestResult : BitForm (.bitSx .ix 0xFF 7) 4 7 (.mem (.sx .ix 0xFF))
    ∧ rdLoc8 4 (.mem (.sx .ix 0xFF)) wit = .ok 0 := ⟨.bitSx _ _ _, by decide⟩
theorem witness_CallResult : CallForm (.callCc .z 0x2000) 3 (.cc .z) (.da 0x2000) ∧ (Cond.cc .z).holds wit = false
    ∧ (Cond.cc .z).holds (small 0 0x40 0 0 0) = true ∧ wit.mem.wf = true
    ∧ wit.reach wit.curData .write (wit.sp - 2) = .ok 0x7FFE ∧ wit.reach wit.curData .write (wit.sp - 2 + 1) = .ok 0x7FFF
    ∧ (wit.sp - 2, wit.slr) ∉ wit.cfg.stackWarn
    ∧ (wit.mode = .system ∧ ({ wit with tcr := 4 } : State).tcr.getLsbD wit.cfg.tcrS = true
      ∧ (wit.sp - 2, wit.slr) ∈ { Platform.default with stackWarn := [(0x7FFE, 0)] }.stackWarn)
          := ⟨.callCc _ _, by decide⟩
theorem witness_JumpResult : JumpForm (.jrCc .c 0x80) 2 (.jcc .c) (.short 0x80) ∧ (Cond.jcc .c).holds wit = false
    ∧ (Cond.jcc .c).holds (small 0 1 0 0 0) = true ∧ JumpForm .jpHl 1 .always (.operand (.ir .hl)) :=
  ⟨.jrCc _ _, by decide, by decide, .jpHl⟩
theorem witness_DecrementJumpResult : wit.reg8 .b ≠ 1 ∧ (small 0 0 0x0100 0 0).reg8 .b = 1 := by decide
theorem witness_InputToOperand : InputForm (.inDa 0xFFFF) 5 (.mem (.da 0xFFFF))
    ∧ ¬(wit.mode = .user ∧ wit.tcr.getLsbD wit.cfg.tcrI = true) ∧ wit.mem.wf = true
    ∧ Writable8 5 (.mem (.da 0xFFFF)) wit := ⟨.inDa _, by decide, rfl, 0xFFFF, by decide⟩
theorem witness_InputToRegisters : ¬(wit.asUser.mode = .user ∧ wit.asUser.tcr.getLsbD wit.cfg.tcrI = true)
    ∧ wit.cfg.bus16 = true ∧ ({ wit with iop := 0xFE } : State).iop = 0xFE
    ∧ ({ Platform.default with bus16 := false }.bus16 = false
        ∧ ({ wit with iop := 0xFD } : State).iop ≠ 0xFE) := by decide
theorem witness_BlockInputIteration : BlockInputForm .inirw .word .inc true
    ∧ ¬(wit.mode = .user ∧ wit.tcr.getLsbD wit.cfg.tcrI = true)
    ∧ ({ Platform.default with bus16 := false }.bus16 = false ∧ wit.iop ≠ 0xFE ∧ wit.iop ≠ 0xFF)
    ∧ (wit.mem.wf = true ∧ wit.reach wit.curData .write wit.hl = .ok 0x1000
      ∧ wit.reach wit.curData .write (wit.hl + 1) = .ok 0x1001 ∧ wit.cfg.bus16 = true)
    ∧ (wit.reg8 .b ≠ 1 ∧ (small 0 0 0x0100 0 0).reg8 .b = 1) := ⟨.inirw, by decide⟩
theorem witness_InterruptEnables : wit.mode = .system ∧ (0x80 : Byte).getLsbD 7 = true
    ∧ (0x7F : Byte).getLsbD 7 = false := by
  decide
theorem witness_HaltResult : wit.mode = .system ∧ wit.msr.getLsbD wit.cfg.msrBH = false
    ∧ (({ wit with msr := 0x1000 } : State).mode = .system ∧ (0x1000 : Word).getLsbD wit.cfg.msrBH = true) := by decide
theorem witness_ControlRegisters : ReadControlForm .ldctlHlC 2 .hl ∧ WriteControlForm .ldctlCHl 2 .hl
    ∧ wit.mode = .system
    ∧ ((0xFF, Reg.bti) ∈ controlTable ∧ (small 0 0 0xFF 0 0).reg8 .c = 0xFF) ∧ (small 0 0 0x16 0 0).reg8 .c = 0x16
    ∧ (∀ cg ∈ controlTable, cg.1 ≠ (small 0 0 0xFE 0 0).reg8 .c) := ⟨.ldctlHlC, .ldctlCHl, by decide⟩
theorem witness_UserStackPointerLoads : ReadUspForm .ldctlHlUsp 2 .hl ∧ WriteUspForm .ldctlUspHl 2 .hl
    ∧ wit.mode = .system := ⟨.ldctlHlUsp, .ldctlUspHl, rfl⟩

end Sys2Proof.Machine
end

section
/-! PROOFS. The adders and subtracters of 00_scope.md R17. The spec writes each once per width; here both widths are
instances of one adder and one subtracter on `k + 1` bits, and every flag is characterised once, for every `k`. -/

namespace Sys2Proof.Machine

/-! ### Signs and overflow -/

/-- The top bit of R17's flags is the sign of the signed reading. -/
theorem getLsbD_top_eq_toInt_neg {k : Nat} (x : BitVec (k + 1)) : x.getLsbD k = decide (x.toInt < 0) :=
  (BitVec.msb_eq_getLsbD_last x).symm.trans BitVec.msb_eq_toInt

theorem toInt_bounds {k : Nat} (x : BitVec (k + 1)) : -((2 ^ k : Nat) : Int) ≤ x.toInt ∧ x.toInt < (2 ^ k : Nat) := by
  have lower := BitVec.le_toInt x
  have upper := BitVec.toInt_lt (x := x)
  rw [Nat.add_sub_cancel] at lower upper
  push_cast
  exact ⟨lower, upper⟩

/-- A sum of two signed numbers and a carry leaves the range of its operands by less than one turn, so it wraps by
nothing, one turn down or one turn up. -/
theorem bmod_of_within_one_turn {M : Nat} {t : Int} (lower : -(2 * M : Int) ≤ t) (upper : t < 2 * M) :
    (-(M : Int) ≤ t ∧ t < M ∧ t.bmod (2 * M) = t)
      ∨ ((M : Int) ≤ t ∧ t.bmod (2 * M) = t - (2 * M : Nat))
      ∨ (t < -(M : Int) ∧ t.bmod (2 * M) = t + (2 * M : Nat)) := by
  rcases lt_or_ge t (-(M : Int)) with below | notBelow
  · refine .inr (.inr ⟨below, ?_⟩)
    rw [← Int.add_bmod_right, Int.bmod_eq_of_le_mul_two] <;> omega
  rcases lt_or_ge t (M : Int) with inside | above
  · refine .inl ⟨notBelow, inside, ?_⟩
    rw [Int.bmod_eq_of_le_mul_two] <;> omega
  · refine .inr (.inl ⟨above, ?_⟩)
    rw [← Int.sub_bmod_right, Int.bmod_eq_of_le_mul_two] <;> omega

/-- The sign rule for overflow on integers: two addends of the same sign, a result of the other. A difference
`x - y - c` is the sum of `x` and `-y - 1` with carry `1 - c`, so this serves both directions. -/
theorem signs_show_overflow {M : Nat} {x y t : Int} (hx : -(M : Int) ≤ x ∧ x < M) (hy : -(M : Int) ≤ y ∧ y < M)
    (carry : t = x + y ∨ t = x + y + 1) :
    ((x < 0 ↔ y < 0) ∧ ¬(t.bmod (2 * M) < 0 ↔ x < 0)) ↔ t < -(M : Int) ∨ (M : Int) ≤ t := by
  have wraps := bmod_of_within_one_turn (M := M) (t := t) (by omega) (by omega)
  omega

/-! ### The adder -/

/-- The adder of R17 on `k + 1` bits; H is the carry out of the `low` lowest bits. -/
def adder (k low : Nat) (a b : BitVec (k + 1)) (cin : Bool) : Alu (k + 1) :=
  let sum := a.toNat + b.toNat + cin.toNat
  let res := BitVec.ofNat (k + 1) sum
  { res := res
    s := res.getLsbD k
    z := decide (res = 0)
    h := decide (2 ^ low ≤ a.toNat % 2 ^ low + b.toNat % 2 ^ low + cin.toNat)
    v := (a.getLsbD k == b.getLsbD k) && (res.getLsbD k != a.getLsbD k)
    n := false
    c := decide (2 ^ (k + 1) ≤ sum) }

theorem add8_eq_adder (a b : Byte) (cin : Bool) : add8 a b cin = adder 7 4 a b cin := rfl

theorem add16_eq_adder (a b : Word) (cin : Bool) : add16 a b cin = adder 15 12 a b cin := rfl

section
variable {k : Nat} (low : Nat) (a b : BitVec (k + 1)) (cin : Bool)

theorem adder_res_toNat : (adder k low a b cin).res.toNat = (a.toNat + b.toNat + cin.toNat) % 2 ^ (k + 1) :=
  BitVec.toNat_ofNat ..

theorem adder_s_iff : (adder k low a b cin).s = true ↔ (adder k low a b cin).res.toInt < 0 := by
  simp only [adder, getLsbD_top_eq_toInt_neg, decide_eq_true_eq]

theorem adder_z_iff : (adder k low a b cin).z = true ↔ (a.toNat + b.toNat + cin.toNat) % 2 ^ (k + 1) = 0 := by
  rw [← adder_res_toNat low]
  exact decide_eq_true_iff.trans BitVec.toNat_inj.symm

theorem adder_h_iff : (adder k low a b cin).h = true ↔
    2 ^ low ≤ a.toNat % 2 ^ low + b.toNat % 2 ^ low + cin.toNat := decide_eq_true_iff

theorem adder_c_iff : (adder k low a b cin).c = true ↔ 2 ^ (k + 1) ≤ a.toNat + b.toNat + cin.toNat :=
  decide_eq_true_iff

/-- The result is the wrapped signed sum too: unsigned and signed readings differ by whole turns. -/
theorem adder_res_toInt : (adder k low a b cin).res.toInt = (a.toInt + b.toInt + cin.toNat).bmod (2 * 2 ^ k) := by
  have res_eq : (adder k low a b cin).res = BitVec.ofInt (k + 1) (a.toInt + b.toInt + cin.toNat) := by
    simp [adder, BitVec.ofInt_add, BitVec.ofNat_add]
  rw [res_eq, BitVec.toInt_ofInt, Nat.pow_succ']

theorem adder_v_iff : (adder k low a b cin).v = true ↔
    a.toInt + b.toInt + cin.toNat < -((2 ^ k : Nat) : Int) ∨ ((2 ^ k : Nat) : Int) ≤ a.toInt + b.toInt + cin.toNat := by
  have carry : (a.toInt + b.toInt + cin.toNat = a.toInt + b.toInt)
      ∨ a.toInt + b.toInt + cin.toNat = a.toInt + b.toInt + 1 := by cases cin <;> simp
  rw [← signs_show_overflow (toInt_bounds a) (toInt_bounds b) carry, ← adder_res_toInt low]
  simp only [adder, getLsbD_top_eq_toInt_neg, Bool.and_eq_true, beq_iff_eq, bne_iff_ne, ne_eq, decide_eq_decide]

end

/-! ### The subtracter -/

/-- The subtracter of R17 on `k + 1` bits; H is the borrow into the `low` lowest bits. -/
def subtracter (k low : Nat) (a b : BitVec (k + 1)) (bin : Bool) : Alu (k + 1) :=
  let diff : Int := a.toNat - b.toNat - bin.toNat
  let res := BitVec.ofInt (k + 1) diff
  { res := res
    s := res.getLsbD k
    z := decide (res = 0)
    h := decide ((a.toNat % 2 ^ low : Nat) - (b.toNat % 2 ^ low : Nat) - (bin.toNat : Int) < 0)
    v := (a.getLsbD k != b.getLsbD k) && (res.getLsbD k == b.getLsbD k)
    n := true
    c := decide (diff < 0) }

theorem sub8_eq_subtracter (a b : Byte) (bin : Bool) : sub8 a b bin = subtracter 7 4 a b bin := rfl

theorem sub16_eq_subtracter (a b : Word) (bin : Bool) : sub16 a b bin = subtracter 15 12 a b bin := rfl

section
variable {k : Nat} (low : Nat) (a b : BitVec (k + 1)) (bin : Bool)

theorem subtracter_res_toNat : ((subtracter k low a b bin).res.toNat : Int)
    = (a.toNat - b.toNat - bin.toNat : Int) % (2 ^ (k + 1) : Nat) := by
  have turn_pos := Nat.two_pow_pos (k + 1)
  rw [subtracter, BitVec.toNat_ofInt, Int.toNat_of_nonneg (Int.emod_nonneg _ (by omega))]

theorem subtracter_s_iff : (subtracter k low a b bin).s = true ↔ (subtracter k low a b bin).res.toInt < 0 := by
  simp only [subtracter, getLsbD_top_eq_toInt_neg, decide_eq_true_eq]

theorem subtracter_z_iff : (subtracter k low a b bin).z = true ↔
    (a.toNat - b.toNat - bin.toNat : Int) % (2 ^ (k + 1) : Nat) = 0 := by
  rw [← subtracter_res_toNat low, Int.natCast_eq_zero]
  exact decide_eq_true_iff.trans BitVec.toNat_inj.symm

theorem subtracter_h_iff : (subtracter k low a b bin).h = true ↔
    a.toNat % 2 ^ low < b.toNat % 2 ^ low + bin.toNat := by
  simp only [subtracter, decide_eq_true_eq]
  omega

theorem subtracter_c_iff : (subtracter k low a b bin).c = true ↔ a.toNat < b.toNat + bin.toNat := by
  simp only [subtracter, decide_eq_true_eq]
  omega

theorem subtracter_res_toInt :
    (subtracter k low a b bin).res.toInt = (a.toInt - b.toInt - bin.toNat).bmod (2 * 2 ^ k) := by
  have res_eq : (subtracter k low a b bin).res = BitVec.ofInt (k + 1) (a.toInt - b.toInt - bin.toNat) := by
    simp [subtracter, Int.sub_eq_add_neg, BitVec.ofInt_add, BitVec.ofInt_neg]
  rw [res_eq, BitVec.toInt_ofInt, Nat.pow_succ']

theorem subtracter_v_iff : (subtracter k low a b bin).v = true ↔
    a.toInt - b.toInt - bin.toNat < -((2 ^ k : Nat) : Int)
      ∨ ((2 ^ k : Nat) : Int) ≤ a.toInt - b.toInt - bin.toNat := by
  have complement_bounds : -((2 ^ k : Nat) : Int) ≤ -b.toInt - 1 ∧ -b.toInt - 1 < (2 ^ k : Nat) := by
    have := toInt_bounds b
    omega
  have carry : a.toInt - b.toInt - bin.toNat = a.toInt + (-b.toInt - 1)
      ∨ a.toInt - b.toInt - bin.toNat = a.toInt + (-b.toInt - 1) + 1 := by
    cases bin <;> simp <;> omega
  rw [← signs_show_overflow (toInt_bounds a) complement_bounds carry, ← subtracter_res_toInt low]
  simp only [subtracter, getLsbD_top_eq_toInt_neg, Bool.and_eq_true, beq_iff_eq, bne_iff_ne, ne_eq, decide_eq_decide]
  omega

end

/-! ### The four helpers of R17 -/

/-- Settles O15: the two adders are the adder on 8 and 16 bits, the two subtracters the subtracter, with H at bit 4 and
at bit 12. -/
theorem addersAndSubtractersAreExact : Obligations.AddersAndSubtractersAreExact := by
  refine ⟨fun a b cin => ?_, fun a b cin => ?_, fun a b bin => ?_, fun a b bin => ?_⟩
  · rw [add8_eq_adder]
    exact ⟨adder_res_toNat .., adder_s_iff .., adder_z_iff .., adder_h_iff .., adder_v_iff .., rfl, adder_c_iff ..⟩
  · rw [add16_eq_adder]
    exact ⟨adder_res_toNat .., adder_s_iff .., adder_z_iff .., adder_h_iff .., adder_v_iff .., rfl, adder_c_iff ..⟩
  · rw [sub8_eq_subtracter]
    exact ⟨subtracter_res_toNat .., subtracter_s_iff .., subtracter_z_iff .., subtracter_h_iff ..,
      subtracter_v_iff .., rfl, subtracter_c_iff ..⟩
  · rw [sub16_eq_subtracter]
    exact ⟨subtracter_res_toNat .., subtracter_s_iff .., subtracter_z_iff .., subtracter_h_iff ..,
      subtracter_v_iff .., rfl, subtracter_c_iff ..⟩

end Sys2Proof.Machine
end

section
/-! PROOFS. The registers of 10_state.md as reset leaves them and as LDCTL reads and writes them (48_cpu_control.md
R309, R310): every control register has one address and one name, and each direction of LDCTL is its family's operation
over that name. -/

namespace Sys2Proof.Machine

/-! ### Reset -/

theorem launchable_iff {s : State} : s.launchable = true ↔
    s.initial = true ∧ s.premiseSys = true ∧ s.premiseNoSs = true ∧ s.premiseNoBh = true ∧ s.premiseRun = true
      ∧ s.premiseMmu = true ∧ s.premiseNoWarn = true ∧ s.premiseBus = true := by
  simp only [State.launchable, Bool.and_eq_true, and_assoc]

/-- Without listed bytes, written addresses and transactions there is nothing that could be out of form. -/
theorem inv_of_empty {s : State} (hm : s.mem.cells = []) (hw : s.written = []) (ht : s.ioTrace = []) :
    s.inv = true := by
  simp [State.inv, Memory.wf, cellsWf, addrsWf, hm, hw, ht]

theorem get_of_empty {m : Memory} (hm : m.cells = []) (p : PhysAddr) : m.get p = 0 := by
  rw [Memory.get, hm]
  rfl

theorem reset_mode : State.reset.mode = .system := by decide

theorem reset_launchable : State.reset.launchable = true :=
  launchable_iff.mpr ⟨rfl, decide_eq_true reset_mode, by decide, by decide, rfl, rfl, rfl, rfl⟩

/-- Settles O8: reset lists nothing in memory, in the written set and in the trace, and its registers and parameters
meet each launch premise. -/
theorem resetState : Obligations.ResetState :=
  ⟨inv_of_empty rfl rfl rfl, reset_launchable, by decide, get_of_empty rfl⟩

/-! ### The control registers by address and by name -/

/-- The name of a control register among the registers of 10_state.md. -/
@[simp] def ControlReg.reg : ControlReg → Reg
  | .msr => .msr
  | .isr => .isr
  | .itvtp => .itvtp
  | .iop => .iop
  | .bti => .bti
  | .btc => .btc
  | .slr => .slr
  | .tcr => .tcr
  | .ccr => .ccr
  | .lar => .lar

/-- An address of the table of R44 selects the register the table lists there. -/
theorem controlReg?_of_mem {c : Byte} {x : Reg} (h : (c, x) ∈ controlTable) :
    ∃ g : ControlReg, controlReg? c = some g ∧ g.reg = x := by
  simp only [controlTable, List.mem_cons, Prod.mk.injEq, List.not_mem_nil, or_false] at h
  obtain ⟨rfl, rfl⟩ | ⟨rfl, rfl⟩ | ⟨rfl, rfl⟩ | ⟨rfl, rfl⟩ | ⟨rfl, rfl⟩ | ⟨rfl, rfl⟩ | ⟨rfl, rfl⟩ | ⟨rfl, rfl⟩
    | ⟨rfl, rfl⟩ | ⟨rfl, rfl⟩ := h
  all_goals exact ⟨_, rfl, rfl⟩

/-- No other address selects a register. -/
theorem controlReg?_of_not_listed {c : Byte} (h : ∀ cg ∈ controlTable, cg.1 ≠ c) : controlReg? c = none := by
  simp only [controlTable, List.forall_mem_cons] at h
  obtain ⟨msr, btc, slr, itvtp, iop, tcr, ccr, lar, isr, bti, -⟩ := h
  rw [controlReg?, if_neg msr.symm, if_neg btc.symm, if_neg slr.symm, if_neg itvtp.symm, if_neg iop.symm,
    if_neg tcr.symm, if_neg ccr.symm, if_neg lar.symm, if_neg isr.symm, if_neg bti.symm]

section

variable {g : ControlReg} {v free : Word} {s t : State} {i : Instr} {len : Nat} {w : Reg16}

/-! ### What LDCTL reads -/

theorem readControl_word (h : g.reg ∈ [Reg.msr, .slr, .itvtp]) : (readControl g free s).toNat = s.look g.reg := by
  cases g <;> simp at h <;> rfl

theorem joinBytes_toNat_mod (hi lo : Byte) : (joinBytes hi lo).toNat % 256 = lo.toNat := by
  rw [← loByte_toNat, loByte_joinBytes]

theorem readControl_byte (h : g.reg ∈ [Reg.iop, .bti, .btc, .tcr, .ccr, .lar]) :
    (readControl g free s).toNat % 256 = s.look g.reg := by
  cases g <;> simp at h <;> exact joinBytes_toNat_mod _ _

theorem extractLsb'_mode_field_toNat (w : Word) : (w.extractLsb' 8 2).toNat = w.toNat / 256 % 4 := by
  rw [BitVec.extractLsb'_toNat, Nat.shiftRight_eq_div_pow]

/-- Of ISR the read takes the mode field, bits 9:8; the mask keeps the unconstrained bits out of it. -/
theorem readControl_isr : (readControl .isr free s).toNat / 256 % 4 = s.isr.toNat / 256 % 4 := by
  have field : (readControl .isr free s).extractLsb' 8 2 = s.isr.extractLsb' 8 2 := by
    ext k hk
    obtain rfl | rfl : k = 0 ∨ k = 1 := by omega
    all_goals simp [readControl]
  rw [← extractLsb'_mode_field_toNat, field, extractLsb'_mode_field_toNat]

/-! ### What LDCTL writes -/

theorem writeControl_isr : writeControl .isr v s = none := rfl

theorem exists_writeControl (h : g.reg ≠ .isr) : ∃ t, writeControl g v s = some t := by
  cases g
  case isr => exact absurd rfl h
  all_goals exact ⟨_, rfl⟩

theorem look_writeControl_word (hw : writeControl g v s = some t) (h : g.reg ∈ [Reg.msr, .slr, .itvtp]) :
    t.look g.reg = v.toNat := by
  cases g <;> simp at h <;> cases hw <;> rfl

theorem look_writeControl_byte (hw : writeControl g v s = some t)
    (h : g.reg ∈ [Reg.iop, .bti, .btc, .tcr, .ccr, .lar]) : t.look g.reg = v.toNat % 256 := by
  cases g <;> simp at h <;> cases hw <;> exact loByte_toNat v

theorem look_writeControl_ne (hw : writeControl g v s = some t) {x : Reg} (h : x ≠ g.reg) : t.look x = s.look x := by
  cases g <;> cases hw <;> cases x <;> first | rfl | exact absurd rfl h

theorem unchanged_writeControl (hw : writeControl g v s = some t) : Unchanged [g.reg] s t := by
  refine ⟨fun _ hx => look_writeControl_ne hw (by simpa using hx), ?_⟩
  cases g <;> cases hw <;> exact ⟨rfl, rfl, rfl, rfl⟩

theorem writeControl_frame (hw : writeControl g v s = some t) :
    t.f = s.f ∧ t.pc = s.pc ∧ t.eiShadow = s.eiShadow ∧ t.mem = s.mem ∧ t.written = s.written
      ∧ t.ioTrace = s.ioTrace := by
  cases g <;> cases hw <;> exact ⟨rfl, rfl, rfl, rfl, rfl, rfl⟩

/-! ### The two directions of LDCTL in system mode -/

theorem ReadControlForm.exec_eq (h : ReadControlForm i len w) : exec i s = loadFromControl len w s := by
  cases h <;> rfl

theorem WriteControlForm.exec_eq (h : WriteControlForm i len w) : exec i s = loadToControl len w s := by
  cases h <;> rfl

theorem loadFromControl_none (hs : s.mode = .system) (hc : controlReg? (s.reg8 .c) = none) :
    loadFromControl len w s = .refused .noControlRegister := by
  rw [loadFromControl, privCheck_system hs, hc]

theorem loadFromControl_some (hs : s.mode = .system) (hc : controlReg? (s.reg8 .c) = some g) :
    loadFromControl len w s = .next ((s.drawn.setReg16 w (readControl g s.anyWord s)).advance len) := by
  rw [loadFromControl, privCheck_system hs, hc]

theorem loadToControl_none (hs : s.mode = .system) (hc : controlReg? (s.reg8 .c) = none) :
    loadToControl len w s = .refused .noControlRegister := by
  rw [loadToControl, privCheck_system hs, hc]

theorem loadToControl_isr (hs : s.mode = .system) (hc : controlReg? (s.reg8 .c) = some .isr) :
    loadToControl len w s = .refused .interruptStatusWrite := by
  rw [loadToControl, privCheck_system hs, hc]
  rfl

theorem loadToControl_some (hs : s.mode = .system) (hc : controlReg? (s.reg8 .c) = some g)
    (hw : writeControl g (s.reg16 w) (s.advance len) = some t) : loadToControl len w s = .next t := by
  simp only [loadToControl, privCheck_system hs, hc, hw]

/-- The frame of a loaded 16-bit register: the value drawn and the advance change no register. -/
theorem unchanged_drawn_setReg16_advance :
    Unchanged (w.regs s) s ((s.drawn.setReg16 w v).advance len) :=
  ((unchanged_drawn s).trans (unchanged_setReg16 s.drawn w v)).trans (unchanged_advance _ len)
    |>.mono (by cases w <;> simp [Reg16.regs])

end

/-- Settles O58, over the register that the address in C selects. -/
theorem readControlRegister : Obligations.ReadControlRegister := by
  intro i len w hi s hs
  rw [hi.exec_eq]
  refine ⟨?_, fun unlisted => loadFromControl_none hs (controlReg?_of_not_listed unlisted)⟩
  rintro _ _ hg rfl
  obtain ⟨g, hc, rfl⟩ := controlReg?_of_mem hg
  have loaded : ((s.drawn.setReg16 w (readControl g s.anyWord s)).advance len).reg16 w
      = readControl g s.anyWord s := by simp
  refine ⟨_, loadFromControl_some hs hc, ?_, ?_, ?_, by simp [SameFlags], .of_eq (by simp) (by simp),
    completed_advance len (by simp), unchanged_drawn_setReg16_advance, by simp [SameTrace]⟩
  all_goals rw [loaded]
  · exact readControl_word
  · exact readControl_byte
  · intro isr
    cases g <;> cases isr
    exact readControl_isr

/-- Settles O59, over the register that the address in C selects. -/
theorem writeControlRegister : Obligations.WriteControlRegister := by
  intro i len w hi s hs
  rw [hi.exec_eq]
  refine ⟨?_, fun atIsr => loadToControl_isr hs (by rw [atIsr]; rfl),
    fun unlisted => loadToControl_none hs (controlReg?_of_not_listed unlisted)⟩
  rintro _ _ hg notIsr rfl
  obtain ⟨g, hc, rfl⟩ := controlReg?_of_mem hg
  obtain ⟨t, hw⟩ := exists_writeControl (v := s.reg16 w) (s := s.advance len) notIsr
  obtain ⟨hf, hpc, hei, hmem, hwritten, htrace⟩ := writeControl_frame hw
  exact ⟨t, loadToControl_some hs hc hw, look_writeControl_word hw, look_writeControl_byte hw, hf,
    .of_eq hmem hwritten, ⟨hpc, hei⟩, (unchanged_advance s len).trans (unchanged_writeControl hw), htrace⟩

end Sys2Proof.Machine
end

section
/-! PROOFS. What every step keeps: the canonical form of the state (20_memory.md R69, R82), and what only grows. Both
are shown for each named update of the state and so hold of every step (`step_moves`). -/

namespace Sys2Proof.Machine

/-! ### The canonical form -/

theorem inv_iff {s : State} :
    s.inv = true ↔ s.mem.wf = true ∧ addrsWf 0 s.written = true ∧ ∀ e ∈ s.ioTrace, e.wf = true := by
  simp only [State.inv, Bool.and_eq_true, List.all_eq_true, and_assoc]

/-- What a transaction answers is as wide as the transaction. -/
theorem ioValue_wf (s : State) (a : IoAddr) (w : IoWidth) :
    (IoEvent.mk a w (s.ioValue a w)).wf = true := by
  cases w with
  | word => rfl
  | byte =>
    have := (loByte (Config.ioIn s.ioTrace.length a .byte)).isLt
    simp only [IoEvent.wf, State.ioValue, BitVec.toNat_setWidth, decide_eq_true_eq]
    omega

theorem inv_putByte {s : State} (h : s.inv = true) (p : PhysAddr) (b : Byte) : (s.putByte p b).inv = true := by
  obtain ⟨hmem, hwritten, htrace⟩ := inv_iff.mp h
  exact inv_iff.mpr ⟨Memory.set_wf hmem p b, insertAddr_wf p.isLt (Nat.zero_le _) hwritten, htrace⟩

theorem inv_ioDone {s : State} (h : s.inv = true) (a : IoAddr) (w : IoWidth) : (s.ioDone a w).inv = true := by
  obtain ⟨hmem, hwritten, htrace⟩ := inv_iff.mp h
  refine inv_iff.mpr ⟨hmem, hwritten, fun e he => ?_⟩
  rw [ioTrace_ioDone, List.mem_append, List.mem_singleton] at he
  obtain he | rfl := he
  · exact htrace e he
  · exact ioValue_wf s a w

theorem inv_congr {s t : State} (hm : t.mem = s.mem) (hw : t.written = s.written) (ht : t.ioTrace = s.ioTrace) :
    t.inv = s.inv := by
  rw [State.inv, State.inv, hm, hw, ht]

theorem SameButControl.inv_eq {t u : State} (h : SameButControl t u) : u.inv = t.inv := by
  rw [h]
  rfl

theorem Moves.inv {s t : State} (h : Moves s t) (hs : s.inv = true) : t.inv = true := by
  induction h with
  | refl => exact hs
  | putByte _ p b ih => exact inv_putByte ih p b
  | ioDone _ _ a w ih => exact inv_ioDone ih a w
  | control _ _ hu ih => exact hu.inv_eq.trans ih
  | setXY _ q v ih => exact (inv_congr (by simp) (by simp) (by simp)).trans ih
  | setAF _ _ ih | setGP _ _ ih | setSP _ _ ih | drawn _ ih | jump _ _ ih | swapAF _ _ ih | swapRF _ _ ih => exact ih

/-- Settles O7: a store keeps the lists in order, a transaction is no wider than its width, and no other update touches
memory, the written set or the trace. -/
theorem stepKeepsInvariant : Obligations.StepKeepsInvariant :=
  fun _ _ hs h => (step_moves h).inv hs

/-! ### What only grows -/

/-- `t` comes after `s` in one run: the parameters and the latch stand, the trace and the written set have grown, and
memory differs only at written addresses (R66, R68, R82, R281). -/
structure Extends (s t : State) : Prop where
  cfg : t.cfg = s.cfg
  latch : t.mmuLatch = s.mmuLatch
  trace : s.ioTrace <+: t.ioTrace
  written : ∀ p : PhysAddr, s.wasWritten p = true → t.wasWritten p = true
  mem : s.mem.wf = true → t.mem.wf = true ∧ ∀ p : PhysAddr, t.mem.get p = s.mem.get p ∨ t.wasWritten p = true

theorem Extends.trans {s t u : State} (h : Extends s t) (h' : Extends t u) : Extends s u where
  cfg := h'.cfg.trans h.cfg
  latch := h'.latch.trans h.latch
  trace := h.trace.trans h'.trace
  written p hp := h'.written p (h.written p hp)
  mem hs := by
    obtain ⟨ht, hst⟩ := h.mem hs
    obtain ⟨hu, htu⟩ := h'.mem ht
    refine ⟨hu, fun p => ?_⟩
    obtain same | new := htu p
    · rw [same]
      exact (hst p).imp_right (h'.written p)
    · exact .inr new

theorem extends_of_same {s t : State} (hc : t.cfg = s.cfg) (hl : t.mmuLatch = s.mmuLatch)
    (ht : t.ioTrace = s.ioTrace) (hm : t.mem = s.mem) (hw : t.written = s.written) : Extends s t where
  cfg := hc
  latch := hl
  trace := ⟨[], by rw [ht, List.append_nil]⟩
  written p hp := by rwa [State.wasWritten, hw]
  mem hs := by rw [hm]; exact ⟨hs, fun _ => .inl rfl⟩

theorem extends_putByte (s : State) (p : PhysAddr) (b : Byte) : Extends s (s.putByte p b) where
  cfg := rfl
  latch := rfl
  trace := ⟨[], List.append_nil _⟩
  written q hq := by rw [wasWritten_putByte, hq, Bool.or_true]
  mem hs := by
    refine ⟨Memory.set_wf hs p b, fun q => ?_⟩
    by_cases hq : q = p
    · exact .inr (by rw [wasWritten_putByte, decide_eq_true hq, Bool.true_or])
    · exact .inl (Memory.get_set_other hs hq b)

theorem extends_ioDone (s : State) (a : IoAddr) (w : IoWidth) : Extends s (s.ioDone a w) where
  cfg := rfl
  latch := rfl
  trace := ⟨_, rfl⟩
  written _ hp := hp
  mem hs := ⟨hs, fun _ => .inl rfl⟩

theorem SameButControl.extends {t u : State} (h : SameButControl t u) : Extends t u := by
  rw [h]
  exact extends_of_same rfl rfl rfl rfl rfl

theorem Moves.extends {s t : State} (h : Moves s t) : Extends s t := by
  induction h with
  | refl => exact extends_of_same rfl rfl rfl rfl rfl
  | putByte _ p b ih => exact ih.trans (extends_putByte _ p b)
  | ioDone _ _ a w ih => exact ih.trans (extends_ioDone _ a w)
  | control _ _ hu ih => exact ih.trans hu.extends
  | setXY _ q v ih => exact ih.trans (extends_of_same (by simp) (by simp) (by simp) (by simp) (by simp))
  | setAF _ _ ih | setGP _ _ ih | setSP _ _ ih | drawn _ ih | jump _ _ ih | swapAF _ _ ih | swapRF _ _ ih =>
    exact ih.trans (extends_of_same rfl rfl rfl rfl rfl)

/-- Settles O10: each named update extends the state, and a step is made of them. -/
theorem stepIsMonotone : Obligations.StepIsMonotone := by
  intro s t h
  have ext := (step_moves h).extends
  exact ⟨ext.cfg, ext.latch, ext.trace, ext.written, fun hs p hp => ((ext.mem hs).2 p).resolve_left hp⟩

end Sys2Proof.Machine
end

section
/-! PROOFS. Where the fetch stops (30_encoding.md R116, R118): bytes that decide nothing are fewer than the longest
instruction has, so the fetch goes on to the byte after them. -/

namespace Sys2Proof

/-! ### No beginning of six bytes is undecided (R90, R116) -/

/-- A row that answers wants at most `n` operand bytes. -/
def RowAtMost (n : Nat) (row : Option Shape) : Prop := ∀ x, row = some x → x.1 ≤ n

@[simp] theorem rowAtMost_some {n m : Nat} {k : List Byte → Instr} : RowAtMost n (some (m, k)) ↔ m ≤ n := by
  simp [RowAtMost]

@[simp] theorem rowAtMost_pat {n : Nat} {op mask val : Byte} {row : Option Shape} :
    RowAtMost n (pat op mask val row) ↔ (op &&& mask = val → RowAtMost n row) := by
  by_cases h : op &&& mask = val <;> simp [pat, h, RowAtMost]

@[simp] theorem rowAtMost_only {n : Nat} {q q' : XY} {row : Option Shape} :
    RowAtMost n (only q q' row) ↔ (q = q' → RowAtMost n row) := by
  by_cases h : q = q' <;> simp [only, h, RowAtMost]

@[simp] theorem rowAtMost_bind {α : Type} {n : Nat} {x : Option α} {f : α → Option Shape} :
    RowAtMost n (x.bind f) ↔ ∀ a, x = some a → RowAtMost n (f a) := by
  cases x <;> simp [RowAtMost]

theorem firstOf_atMost {n : Nat} {rows : List (Option Shape)} (h : ∀ row ∈ rows, RowAtMost n row) :
    RowAtMost n (firstOf rows) := by
  induction rows with
  | nil => nofun
  | cons row rows ih =>
    obtain ⟨first, later⟩ := List.forall_mem_cons.mp h
    cases row with
    | none => exact ih later
    | some x => exact first

theorem rows0_atMost (op : Byte) : ∀ row ∈ rows0 op, RowAtMost 2 row := by
  simp [rows0]

theorem rowsED_atMost (op : Byte) : ∀ row ∈ rowsED op, RowAtMost 2 row := by
  simp [rowsED]

theorem rowsCB_atMost (op : Byte) : ∀ row ∈ rowsCB op, RowAtMost 2 row := by
  simp [rowsCB]

theorem rowsXY_atMost (q : XY) (op : Byte) : ∀ row ∈ rowsXY q op, RowAtMost 4 row := by
  simp [rowsXY]

theorem rowsXYED_atMost (q : XY) (op : Byte) : ∀ row ∈ rowsXYED q op, RowAtMost 3 row := by
  simp [rowsXYED]

theorem decodeOp_short_length {n : Nat} {page : Byte → List (Option Shape)} {bs : List Byte}
    (hp : ∀ op, ∀ row ∈ page op, RowAtMost n row) (h : decodeOp page bs = .short) : bs.length ≤ n := by
  cases bs with
  | nil => exact Nat.zero_le n
  | cons op rest =>
    rw [decodeOp] at h
    split at h
    · cases h
    · next m k hrow =>
      have hm : m ≤ n := firstOf_atMost (hp op) _ hrow
      split at h
      · rw [List.length_cons]
        omega
      · cases h

theorem decodeXYCB_short_length {q : XY} {bs : List Byte} (h : decodeXYCB q bs = .short) : bs.length ≤ 1 := by
  match bs with
  | [] | [_] => simp
  | d :: op :: _ =>
    rw [decodeXYCB] at h
    split at h <;> cases h

theorem decodeXY_short_length {q : XY} {bs : List Byte} (h : decodeXY q bs = .short) : bs.length ≤ 4 := by
  cases bs with
  | nil => exact Nat.zero_le 4
  | cons b rest =>
    rw [decodeXY] at h
    split at h
    · exact Nat.succ_le_succ (decodeOp_short_length (rowsXYED_atMost q) h)
    · split at h
      · exact Nat.succ_le_succ ((decodeXYCB_short_length h).trans (by decide))
      · exact decodeOp_short_length (rowsXY_atMost q) h

/-- Six bytes decide: no instruction is longer (30_encoding.md R90). -/
theorem decode_short_length {bs : List Byte} (h : decode bs = .short) : bs.length < Machine.maxLength := by
  rw [Machine.maxLength, Nat.lt_succ_iff]
  cases bs with
  | nil => exact Nat.zero_le 5
  | cons b rest =>
    rw [decode] at h
    split at h
    · exact Nat.succ_le_succ (decodeXY_short_length h)
    · split at h
      · exact Nat.succ_le_succ (decodeXY_short_length h)
      · split at h
        · exact Nat.succ_le_succ ((decodeOp_short_length rowsED_atMost h).trans (by decide))
        · split at h
          · exact Nat.succ_le_succ ((decodeOp_short_length rowsCB_atMost h).trans (by decide))
          · exact (decodeOp_short_length rows0_atMost h).trans (by decide)

namespace Machine

/-! ### The byte after a beginning that decides nothing -/

section

variable {s : State} {bs : List Byte}

theorem fetch_of_undecided (hb : ∀ (k : Nat) (h : k < bs.length), s.fetchByte k = .byte (bs[k]))
    (hd : ∀ k : Nat, k ≤ bs.length → decode (bs.take k) = .short) :
    ∃ fuel, s.fetch = s.fetchFrom (fuel + 1) bs := by
  have short : decode bs = .short := by simpa using hd bs.length le_rfl
  obtain ⟨fuel, hfuel⟩ := Nat.exists_eq_add_of_lt (decode_short_length short)
  refine ⟨fuel, ?_⟩
  rw [State.fetch, hfuel, Nat.add_assoc, fetchFrom_short (by simpa using hb) (by simpa using hd), List.nil_append]

variable {fuel : Nat}

theorem fetchFrom_stopped {e : AccessStop} (h : s.fetchByte bs.length = .stopped e) :
    s.fetchFrom (fuel + 1) bs = .stopped e := by rw [State.fetchFrom, h]

theorem fetchFrom_written (h : s.fetchByte bs.length = .written) :
    s.fetchFrom (fuel + 1) bs = .refused .writtenCodeFetched := by rw [State.fetchFrom, h]

theorem fetchFrom_unassigned {b : Byte} (h : s.fetchByte bs.length = .byte b)
    (hd : decode (bs ++ [b]) = .unassigned) : s.fetchFrom (fuel + 1) bs = .refused .unassignedEncoding := by
  rw [State.fetchFrom, h]
  simp only [hd]

theorem fetchByte_of_reach_error {k : Nat} {e : AccessStop}
    (h : s.reach s.curProg .fetch (s.pc + BitVec.ofNat 16 k) = .error e) : s.fetchByte k = .stopped e := by
  rw [State.fetchByte, h]

theorem fetchByte_of_reach {k : Nat} {p : PhysAddr}
    (h : s.reach s.curProg .fetch (s.pc + BitVec.ofNat 16 k) = .ok p) :
    s.fetchByte k = if s.wasWritten p then .written else .byte (s.mem.get p) := by
  rw [State.fetchByte, h]

theorem reach_of_phys {sp : Space} {acc : Access} {a : Word} {p : PhysAddr} (h : s.translateAt sp acc a = .phys p)
    (hm : s.isMemory p = true) : s.reach sp acc a = .ok p := by
  simp [State.reach, h, hm]

theorem step_of_fetch_stopped {e : AccessStop} (hh : s.halted = false) (hs : s.msr.getLsbD s.cfg.msrSS = false)
    (hf : s.fetch = .stopped e) : step s = stop e s := by
  rw [step, hh, hs, hf]
  rfl

theorem step_of_fetch_refused {r : Refusal} (hh : s.halted = false) (hs : s.msr.getLsbD s.cfg.msrSS = false)
    (hf : s.fetch = .refused r) : step s = .refused r := by
  rw [step, hh, hs, hf]
  rfl

end

/-- Settles O5: the fetch goes on to the byte after the undecided ones, and what that byte's access answers ends it. -/
theorem fetchStops : Obligations.FetchStops := by
  intro s bs running noSS hb hd
  obtain ⟨fuel, hfetch⟩ := fetch_of_undecided hb hd
  refine ⟨fun wp valid hv => ?_, fun p hp => ⟨fun noMem => ?_, fun isMem isWritten => ?_, fun isMem fresh hu => ?_⟩⟩
  · have stopped := fetchFrom_stopped (fuel := fuel) (fetchByte_of_reach_error (reach_of_violation hv))
    exact ⟨_, step_of_fetch_stopped running noSS (hfetch.trans stopped), rfl⟩
  · have stopped := fetchFrom_stopped (fuel := fuel)
      (fetchByte_of_reach_error (reach_eq_noMemory.mpr ⟨p, hp, noMem⟩))
    exact step_of_fetch_stopped running noSS (hfetch.trans stopped)
  · have byte := fetchByte_of_reach (reach_of_phys hp isMem)
    rw [if_pos isWritten] at byte
    exact step_of_fetch_refused running noSS (hfetch.trans (fetchFrom_written byte))
  · have byte := fetchByte_of_reach (reach_of_phys hp isMem)
    rw [fresh, if_neg Bool.false_ne_true] at byte
    exact step_of_fetch_refused running noSS (hfetch.trans (fetchFrom_unassigned byte hu))

end Machine

end Sys2Proof
end

section
/-! PROOFS. Addresses and memory: the effective address of every mode (30_encoding.md R102, R103), words under the
default platform (20_memory.md R64, R70), and LDIR as the iteration of one copied byte (42_block.md R173, R178). -/

namespace Sys2Proof.Machine

/-! ### Effective addresses -/

theorem add_signExtend_toNat (w : Word) (d : Byte) :
    ((w + d.signExtend 16).toNat : Int) = (w.toNat + d.toInt) % 65536 := by
  have hd : (d.signExtend 16).toInt = d.toInt := BitVec.toInt_signExtend_of_le (by decide)
  have hmod : (((d.signExtend 16).toNat : Int)) % 65536 = d.toInt % 65536 := by
    rw [← hd]
    have := BitVec.toInt_eq_toNat_cond (d.signExtend 16)
    split at this <;> omega
  rw [BitVec.toNat_add]
  push_cast
  omega

theorem pcNext_add_toNat (s : State) (len : Nat) (disp : Word) :
    (s.pcNext len + disp).toNat = (s.pc.toNat + len + disp.toNat) % 65536 := by
  rw [State.pcNext, BitVec.toNat_add, BitVec.toNat_add, BitVec.toNat_ofNat]
  omega

/-- Settles O16: every mode's address is a sum modulo 2^16, the short displacement taken as signed. -/
theorem effectiveAddresses : Obligations.EffectiveAddresses := by
  intro len s
  exact ⟨⟨rfl, rfl, rfl, rfl, rfl⟩, fun _ => rfl,
    fun dd => ⟨BitVec.toNat_add _ _, BitVec.toNat_add _ _, BitVec.toNat_add _ _, BitVec.toNat_add _ _,
      pcNext_add_toNat s len dd⟩,
    fun d => ⟨add_signExtend_toNat _ d, add_signExtend_toNat _ d⟩,
    BitVec.toNat_add _ _, BitVec.toNat_add _ _, BitVec.toNat_add _ _⟩

/-! ### The default platform -/

section

variable {s : State}

theorem reach_default (ht : s.cfg.translate = []) (hh : s.cfg.holes = []) (sp : Space) (acc : Access) (a : Word) :
    s.reach sp acc a = .ok (a.setWidth 24) := by
  simp [State.reach, State.translateAt, State.isMemory, ht, hh]

theorem readByte_of_reach {sp : Space} {a : Word} {p : PhysAddr} (h : s.reach sp .read a = .ok p) :
    s.readByte sp a = .ok (s.mem.get p) := readByte_eq_ok.mpr ⟨p, h, rfl⟩

theorem readByte_default (ht : s.cfg.translate = []) (hh : s.cfg.holes = []) (sp : Space) (a : Word) :
    s.readByte sp a = .ok (s.mem.get (a.setWidth 24)) := readByte_of_reach (reach_default ht hh sp .read a)

/-- Two logical addresses are two physical ones. -/
theorem physAddr_inj {a c : Word} : (a.setWidth 24 : PhysAddr) = c.setWidth 24 ↔ a = c := by
  refine ⟨fun h => ?_, fun h => h ▸ rfl⟩
  have := congrArg BitVec.toNat h
  simp only [BitVec.toNat_setWidth] at this
  bv_omega

theorem word_add_one_ne (a : Word) : a ≠ a + 1 := by bv_omega

end

/-- Settles O17: the two bytes go to two different physical addresses, also where the second is 0000. -/
theorem wordsAreLittleEndian : Obligations.WordsAreLittleEndian := by
  intro s sp a v hm ht hh
  have low : (a.setWidth 24 : PhysAddr) ≠ (a + 1).setWidth 24 := mt physAddr_inj.mp (word_add_one_ne a)
  obtain ⟨stHi, stLo, same, -⟩ :=
    storedWord_putByte hm (a.setWidth 24) ((a + 1).setWidth 24) (loByte v) (hiByte v)
  have read (c : Word) := readByte_default
    (s := (s.putByte (a.setWidth 24) (loByte v)).putByte ((a + 1).setWidth 24) (hiByte v)) ht hh sp c
  have readLo := (read a).trans (congrArg _ (stLo low))
  have readHi := (read (a + 1)).trans (congrArg _ stHi)
  refine ⟨_, writeWord_of_reach (reach_default ht hh sp .write a) (reach_default ht hh sp .write (a + 1)),
    readLo, readHi, readWord_eq_ok.mpr ⟨_, _, readLo, readHi, (joinBytes_hiByte_loByte v).symm⟩, fun c hc hc' => ?_⟩
  rw [read c, readByte_default ht hh, same _ (mt physAddr_inj.mp hc) (mt physAddr_inj.mp hc')]

/-! ### One iteration of LDIR -/

section

variable {s t : State} {n : Nat}

theorem blockLoad_of_reach {d : Dir} {rep : Bool} {p q : PhysAddr} (hr : s.reach s.curData .read s.hl = .ok p)
    (hw : s.reach s.curData .write s.de = .ok q) :
    blockLoad d rep s =
      .next (iterationEnd 2 (rep && decide (s.bc - 1 ≠ 0)) (afterTransfer d (s.putByte q (s.mem.get p)))) := by
  rw [blockLoad, readByte_of_reach hr, settle_ok, writeByte_of_reach hw, settle_ok]

/-- The registers and memory after one iteration of LDIR under the default translation. -/
def copyByte (s : State) : State :=
  afterTransfer .inc (s.putByte (s.de.setWidth 24) (s.mem.get (s.hl.setWidth 24)))

theorem hl_copyByte (s : State) : (copyByte s).hl = s.hl + 1 := by simp [copyByte, afterTransfer, Dir.move]

theorem de_copyByte (s : State) : (copyByte s).de = s.de + 1 := by simp [copyByte, afterTransfer, Dir.move]

theorem bc_copyByte (s : State) : (copyByte s).bc = s.bc - 1 := by simp [copyByte, afterTransfer]

theorem flagsAre_copyByte (s : State) :
    FlagsAre (copyByte s) s.f.s s.f.z false (decide (s.bc - 1 ≠ 0)) false s.f.c := by
  rw [FlagsAre, copyByte, afterTransfer, f_putFlags]
  exact ⟨rfl, rfl, rfl, rfl, rfl, rfl⟩

theorem pc_copyByte (s : State) : (copyByte s).pc = s.pc := by simp [copyByte, afterTransfer]

theorem ioTrace_copyByte (s : State) : (copyByte s).ioTrace = s.ioTrace := by simp [copyByte, afterTransfer]

theorem mem_copyByte (s : State) :
    (copyByte s).mem = s.mem.set (s.de.setWidth 24) (s.mem.get (s.hl.setWidth 24)) := by
  simp [copyByte, afterTransfer]

theorem unchanged_copyByte (s : State) :
    Unchanged [.r8 .b, .r8 .c, .r8 .d, .r8 .e, .r8 .h, .r8 .l] s (copyByte s) :=
  ((((unchanged_putByte s _ _).trans (unchanged_setReg16 _ .de _)).trans (unchanged_setReg16 _ .hl _)).trans
    (unchanged_setReg16 _ .bc _)).trans (unchanged_putFlags _ _) |>.mono (by simp [Reg16.regs])

theorem exec_ldir_last (ht : s.cfg.translate = []) (hh : s.cfg.holes = []) (hbc : s.bc = 1) :
    exec .ldir s = .next ((copyByte s).advance 2) := by
  rw [BlockLoadForm.ldir.exec_eq, blockLoad_of_reach (reach_default ht hh ..) (reach_default ht hh ..), hbc]
  rfl

theorem exec_ldir_again (ht : s.cfg.translate = []) (hh : s.cfg.holes = []) (hbc : s.bc ≠ 1) :
    exec .ldir s = .next (copyByte s) := by
  have more : s.bc - 1 ≠ 0 := by bv_omega
  rw [BlockLoadForm.ldir.exec_eq, blockLoad_of_reach (reach_default ht hh ..) (reach_default ht hh ..),
    decide_eq_true more]
  rfl

/-! ### The iterations of LDIR -/

/-- No iteration stores where a later one reads (R76). -/
def NoOverlap (n : Nat) (s : State) : Prop :=
  ∀ j k : Nat, j < k → k < n → s.de + BitVec.ofNat 16 j ≠ s.hl + BitVec.ofNat 16 k

/-- LDIR begun in `s` has copied `n` bytes and completed in `t`. -/
structure Copied (n : Nat) (s t : State) : Prop where
  copied : ∀ k : Nat, k < n →
    t.mem.get ((s.de + BitVec.ofNat 16 k).setWidth 24) = s.mem.get ((s.hl + BitVec.ofNat 16 k).setWidth 24)
  kept : ∀ a : PhysAddr, (∀ k : Nat, k < n → a ≠ (s.de + BitVec.ofNat 16 k).setWidth 24) →
    t.mem.get a = s.mem.get a
  hl : t.hl = s.hl + BitVec.ofNat 16 n
  de : t.de = s.de + BitVec.ofNat 16 n
  bc : t.bc = 0
  flags : FlagsAre t s.f.s s.f.z false false false s.f.c
  completed : Completed 2 s t
  unchanged : Unchanged [.r8 .b, .r8 .c, .r8 .d, .r8 .e, .r8 .h, .r8 .l] s t
  trace : SameTrace s t

theorem add_one_add_ofNat (w : Word) (k : Nat) : w + 1 + BitVec.ofNat 16 k = w + BitVec.ofNat 16 (k + 1) := by
  bv_omega

theorem add_ofNat_zero (w : Word) : w + BitVec.ofNat 16 0 = w := BitVec.add_zero w

theorem NoOverlap.copyByte (h : NoOverlap (n + 1) s) : NoOverlap n (copyByte s) := by
  intro j k hjk hk
  rw [de_copyByte, hl_copyByte, add_one_add_ofNat, add_one_add_ofNat]
  exact h (j + 1) (k + 1) (by omega) (by omega)

theorem copied_one (hm : s.mem.wf = true) (hbc : s.bc = 1) : Copied 1 s ((copyByte s).advance 2) where
  copied k hk := by
    obtain rfl : k = 0 := by omega
    rw [add_ofNat_zero, add_ofNat_zero, State.advance, mem_jump, mem_copyByte, Memory.get_set_same hm]
  kept a ha := by
    have hde := ha 0 Nat.one_pos
    rw [add_ofNat_zero] at hde
    rw [State.advance, mem_jump, mem_copyByte, Memory.get_set_other hm hde]
  hl := hl_copyByte s
  de := de_copyByte s
  bc := by
    have := bc_copyByte s
    rw [hbc] at this
    exact this
  flags := by
    have := flagsAre_copyByte s
    rw [hbc] at this
    exact this
  completed := completed_advance 2 (pc_copyByte s)
  unchanged := (unchanged_copyByte s).trans (unchanged_advance _ 2)
  trace := ioTrace_copyByte s

/-- The byte stored by one iteration stands when the later iterations have run, and none of them reads it. -/
theorem Copied.cons (hm : s.mem.wf = true) (hn : n < 65536) (ho : NoOverlap (n + 1) s)
    (h : Copied n (copyByte s) t) : Copied (n + 1) s t := by
  have shift (k : Nat) : ((copyByte s).de + BitVec.ofNat 16 k) = s.de + BitVec.ofNat 16 (k + 1) := by
    rw [de_copyByte, add_one_add_ofNat]
  constructor
  case copied =>
    rintro (_ | k) hk
    · have later : ∀ k < n, (s.de.setWidth 24 : PhysAddr) ≠ ((copyByte s).de + BitVec.ofNat 16 k).setWidth 24 := by
        intro k hk e
        rw [shift, physAddr_inj] at e
        bv_omega
      rw [add_ofNat_zero, add_ofNat_zero, h.kept _ later, mem_copyByte, Memory.get_set_same hm]
    · have read : ((s.hl + BitVec.ofNat 16 (k + 1)).setWidth 24 : PhysAddr) ≠ s.de.setWidth 24 := by
        have := ho 0 (k + 1) k.succ_pos hk
        rw [add_ofNat_zero] at this
        exact mt physAddr_inj.mp this.symm
      have := h.copied k (by omega)
      rwa [shift, hl_copyByte, add_one_add_ofNat, mem_copyByte, Memory.get_set_other hm read] at this
  case kept =>
    intro a ha
    have first := ha 0 n.succ_pos
    rw [add_ofNat_zero] at first
    rw [h.kept a fun k hk => shift k ▸ ha (k + 1) (by omega), mem_copyByte, Memory.get_set_other hm first]
  case hl => rw [h.hl, hl_copyByte, add_one_add_ofNat]
  case de => rw [h.de, de_copyByte, add_one_add_ofNat]
  case bc => exact h.bc
  case flags =>
    obtain ⟨sign, zero, -, -, -, carry⟩ := flagsAre_copyByte s
    have := h.flags
    rwa [sign, zero, carry] at this
  case completed =>
    have := h.completed
    rwa [Completed, pc_copyByte] at this
  case unchanged => exact ((unchanged_copyByte s).trans h.unchanged).mono (by simp)
  case trace => exact h.trace.trans (ioTrace_copyByte s)

theorem repeatExec_ldir (n : Nat) (hm : s.mem.wf = true) (ht : s.cfg.translate = []) (hh : s.cfg.holes = [])
    (hn : n < 65536) (hbc : s.bc = BitVec.ofNat 16 (n + 1)) (ho : NoOverlap (n + 1) s) :
    ∃ t, repeatExec .ldir (n + 1) s = .next t ∧ Copied (n + 1) s t := by
  induction n generalizing s with
  | zero => exact ⟨_, by rw [repeatExec, exec_ldir_last ht hh hbc]; rfl, copied_one hm hbc⟩
  | succ n ih =>
    have more : s.bc ≠ 1 := by rw [hbc]; bv_omega
    have cfg : (copyByte s).cfg = s.cfg := (unchanged_copyByte s).2.2.2.2
    obtain ⟨t, run, copied⟩ := ih (s := copyByte s) (by rw [mem_copyByte]; exact Memory.set_wf hm _ _)
      (by rw [cfg, ht]) (by rw [cfg, hh]) (by omega) (by rw [bc_copyByte, hbc]; bv_omega) ho.copyByte
    exact ⟨t, by rw [repeatExec, exec_ldir_again ht hh more]; exact run, copied.cons hm hn ho⟩

end

/-- Settles O30, by induction on the number of iterations. -/
theorem ldirCopiesTheBlock : Obligations.LdirCopiesTheBlock := by
  intro s n hm ht hh hpos hn hbc ho
  obtain ⟨n, rfl⟩ := Nat.exists_eq_add_of_le' hpos
  obtain ⟨t, run, h⟩ := repeatExec_ldir n hm ht hh (by omega) hbc ho
  exact ⟨t, run, h.copied, h.kept, h.hl, h.de, h.bc, h.flags, h.completed, h.unchanged, h.trace⟩

end Sys2Proof.Machine
end

section
/-! PROOFS. How an instruction can end (60_exceptions.md R331 to R343). Its accesses are made in the order `Accesses`
lists them: each of them lets it go on, or stops it with the trap (20_memory.md R67) or the refusal (R69). So the
statements about traps and refusals rest on two facts: what the run of an instruction's accesses answers (`Guarded`), and
the list of the ends an instruction has (`Ends`). -/

namespace Sys2Proof.Machine

/-! ### Accesses in their order -/

/-- What an access reaches in `s`. -/
abbrev State.reaches (s : State) (x : MemAccess) : Acc PhysAddr := s.reach x.space x.access x.addr

/-- The first access of the list that reaches nothing is the violation `v`. -/
inductive FirstViolation (r : MemAccess → Acc PhysAddr) : List MemAccess → Violation → Prop
  | here {x : MemAccess} {l : List MemAccess} {v : Violation} (h : r x = .error (.violation v)) :
      FirstViolation r (x :: l) v
  | later {x : MemAccess} {l : List MemAccess} {v : Violation} {p : PhysAddr} (h : r x = .ok p)
      (hl : FirstViolation r l v) : FirstViolation r (x :: l) v

/-- `x` is the answer of the accesses of the list, made in order. -/
structure Performs {α : Type} (r : MemAccess → Acc PhysAddr) (l : List MemAccess) (x : Acc α) : Prop where
  /-- It stops only where one of them does. -/
  error : ∀ {e}, x = .error e → ∃ y ∈ l, r y = .error e
  /-- It goes on only where all of them do. -/
  ok : ∀ {v}, x = .ok v → ∀ y ∈ l, ∃ p, r y = .ok p
  /-- A violation that nothing precedes is reported. -/
  first : ∀ {v}, FirstViolation r l v → x = .error (.violation v)

/-- `out` is what comes of the accesses of the list, made in order and aborted to `u`: an end that `own` allows, or the stop
of one of them. -/
structure Guarded (r : MemAccess → Acc PhysAddr) (u : State) (own : Out → Prop) (l : List MemAccess) (out : Out) :
    Prop where
  ends : own out ∨ ∃ y ∈ l, ∃ e, r y = .error e ∧ out = stop e u
  next : ∀ {t}, out = .next t → ∀ y ∈ l, ∃ p, r y = .ok p
  first : ∀ {v}, FirstViolation r l v → out = raise (.access v) u

section

variable {r : MemAccess → Acc PhysAddr} {l l' : List MemAccess} {v : Violation} {α β : Type}

theorem firstViolation_of_before {before after : List MemAccess} {x : MemAccess}
    (hb : ∀ y ∈ before, ∃ p, r y = .ok p) (hx : r x = .error (.violation v)) :
    FirstViolation r (before ++ x :: after) v := by
  induction before with
  | nil => exact .here hx
  | cons y before ih =>
    obtain ⟨⟨p, hp⟩, rest⟩ := List.forall_mem_cons.mp hb
    exact .later hp (ih rest)

theorem FirstViolation.append (h : FirstViolation r (l ++ l') v) :
    FirstViolation r l v ∨ (∀ y ∈ l, ∃ p, r y = .ok p) ∧ FirstViolation r l' v := by
  induction l with
  | nil => exact .inr ⟨nofun, h⟩
  | cons y l ih =>
    cases h with
    | here h => exact .inl (.here h)
    | later hp h =>
      obtain h | ⟨hl, h⟩ := ih h
      · exact .inl (.later hp h)
      · exact .inr ⟨List.forall_mem_cons.mpr ⟨⟨_, hp⟩, hl⟩, h⟩

theorem Performs.exists_ok {x : Acc α} (hx : Performs r l x) (hl : ∀ y ∈ l, ∃ p, r y = .ok p) :
    ∃ a, x = .ok a := by
  cases x with
  | ok a => exact ⟨a, rfl⟩
  | error e =>
    obtain ⟨y, hy, he⟩ := hx.error rfl
    obtain ⟨p, hp⟩ := hl y hy
    cases hp.symm.trans he

theorem Performs.pure (a : α) : Performs r [] (.ok a : Acc α) where
  error := nofun
  ok _ := nofun
  first := nofun

theorem Performs.bind {x : Acc α} {f : α → Acc β} (hx : Performs r l x)
    (hf : ∀ a, x = .ok a → Performs r l' (f a)) : Performs r (l ++ l') (x >>= f) where
  error {e} h := by
    cases x with
    | error e' =>
      cases h
      obtain ⟨y, hy, he⟩ := hx.error rfl
      exact ⟨y, List.mem_append_left l' hy, he⟩
    | ok a =>
      obtain ⟨y, hy, he⟩ := (hf a rfl).error h
      exact ⟨y, List.mem_append_right l hy, he⟩
  ok {b} h := by
    cases x with
    | error e => cases h
    | ok a => exact List.forall_mem_append.mpr ⟨hx.ok rfl, (hf a rfl).ok h⟩
  first h := by
    obtain h | ⟨hl, h⟩ := h.append
    · rw [hx.first h]
      rfl
    · obtain ⟨a, rfl⟩ := hx.exists_ok hl
      exact (hf a rfl).first h

theorem Guarded.settle {u : State} {own : Out → Prop} {x : Acc α} {k : α → Out} (hx : Performs r l x)
    (hk : ∀ a, x = .ok a → Guarded r u own l' (k a)) : Guarded r u own (l ++ l') (settle x u k) where
  ends := by
    cases x with
    | error e =>
      obtain ⟨y, hy, he⟩ := hx.error rfl
      exact .inr ⟨y, List.mem_append_left l' hy, e, he, rfl⟩
    | ok a =>
      obtain h | ⟨y, hy, e, he, h⟩ := (hk a rfl).ends
      · exact .inl h
      · exact .inr ⟨y, List.mem_append_right l hy, e, he, h⟩
  next h := by
    obtain ⟨a, rfl, h⟩ := settle_eq_next.mp h
    exact List.forall_mem_append.mpr ⟨hx.ok rfl, (hk a rfl).next h⟩
  first h := by
    obtain h | ⟨hl, h⟩ := h.append
    · rw [hx.first h]
      rfl
    · obtain ⟨a, rfl⟩ := hx.exists_ok hl
      exact (hk a rfl).first h

theorem Guarded.last {u : State} {own : Out → Prop} {x : Acc α} {k : α → Out} (hx : Performs r l x)
    (hk : ∀ a, own (k a)) : Guarded r u own l (Machine.settle x u k) := by
  rw [← List.append_nil l]
  exact .settle hx fun a _ => { ends := .inl (hk a), next := nofun, first := nofun }

end

/-! ### Bytes, words and operands -/

section

variable {s : State} {len : Nat}

theorem performs_readByte (sp : Space) (a : Word) : Performs s.reaches [⟨sp, .read, a⟩] (s.readByte sp a) where
  error h := ⟨_, List.mem_singleton_self _, readByte_eq_error.mp h⟩
  ok h := by
    obtain ⟨p, hp, -⟩ := readByte_eq_ok.mp h
    exact List.forall_mem_singleton.mpr ⟨p, hp⟩
  first h := by
    cases h with
    | here h => exact readByte_eq_error.mpr h
    | later _ h => cases h

theorem performs_writeByte (sp : Space) (a : Word) (b : Byte) :
    Performs s.reaches [⟨sp, .write, a⟩] (s.writeByte sp a b) where
  error h := ⟨_, List.mem_singleton_self _, writeByte_eq_error.mp h⟩
  ok h := by
    obtain ⟨p, hp, -⟩ := writeByte_eq_ok.mp h
    exact List.forall_mem_singleton.mpr ⟨p, hp⟩
  first h := by
    cases h with
    | here h => exact writeByte_eq_error.mpr h
    | later _ h => cases h

theorem performs_readWord (sp : Space) (a : Word) :
    Performs s.reaches [⟨sp, .read, a⟩, ⟨sp, .read, a + 1⟩] (s.readWord sp a) :=
  (performs_readByte sp a).bind fun _ _ => (performs_readByte sp (a + 1)).bind (l' := []) fun _ _ => .pure _

theorem checkWrite_of_violation {sp : Space} {a : Word} {v : Violation}
    (h : s.reach sp .write a = .error (.violation v)) : s.checkWrite sp a = .error (.violation v) := by
  unfold State.reach at h
  unfold State.checkWrite
  split at h
  · cases h
    simp [*]
  · split at h <;> cases h

/-- A word write checks both addresses for violations before it stores a byte (R64). -/
theorem performs_writeWord (sp : Space) (a v : Word) :
    Performs s.reaches [⟨sp, .write, a⟩, ⟨sp, .write, a + 1⟩] (s.writeWord sp a v) where
  error h := by
    obtain h | h := writeWord_eq_error h
    · exact ⟨_, List.mem_cons_self, h⟩
    · exact ⟨_, List.mem_cons_of_mem _ List.mem_cons_self, h⟩
  ok h := by
    obtain ⟨p, p', hp, hp', -⟩ := writeWord_eq_ok.mp h
    exact List.forall_mem_cons.mpr ⟨⟨p, hp⟩, List.forall_mem_singleton.mpr ⟨p', hp'⟩⟩
  first h := by
    rw [State.writeWord]
    cases h with
    | here h =>
      rw [checkWrite_of_violation h]
      rfl
    | later hp h =>
      cases h with
      | here h =>
        rw [checkWrite_of_reach hp, checkWrite_of_violation h]
        rfl
      | later _ h => cases h

theorem performs_push16 (v : Word) : Performs s.reaches (s.wordAt .write (s.sp - 2)) (s.push16 v) :=
  (performs_writeWord s.curData (s.sp - 2) v).bind (l' := []) fun _ _ => .pure _

theorem performs_rdLoc8 (l : Loc8) : Performs s.reaches (l.at8 len s .read) (rdLoc8 len l s) := by
  cases l with
  | reg g => exact .pure _
  | rx q k => exact .pure _
  | mem m => exact performs_readByte _ _

theorem performs_rd8 (x : Src8) : Performs s.reaches (x.reads len s) (rd8 len x s) := by
  cases x with
  | loc l => exact performs_rdLoc8 l
  | imm n => exact .pure _

theorem performs_wr8 (l : Loc8) (b : Byte) : Performs s.reaches (l.at8 len s .write) (wr8 len l b s) := by
  cases l with
  | reg g => exact .pure _
  | rx q k => exact .pure _
  | mem m => exact performs_writeByte _ _ b

theorem performs_rdLoc16 (l : Loc16) : Performs s.reaches (l.at16 len s .read) (rdLoc16 len l s) := by
  cases l with
  | reg w => exact .pure _
  | mem m => exact performs_readWord _ _

theorem performs_rd16 (x : Src16) : Performs s.reaches (x.reads len s) (rd16 len x s) := by
  cases x with
  | loc l => exact performs_rdLoc16 l
  | imm nn => exact .pure _

theorem performs_wr16 (l : Loc16) (v : Word) : Performs s.reaches (l.at16 len s .write) (wr16 len l v s) := by
  cases l with
  | reg w => exact .pure _
  | mem m => exact performs_writeWord _ _ v

/-- An input transaction moves no operand. -/
theorem at8_ioDone (l : Loc8) (a : IoAddr) (w : IoWidth) (acc : Access) :
    l.at8 len (s.ioDone a w) acc = l.at8 len s acc := by
  cases l with
  | reg g => rfl
  | rx q k => rfl
  | mem m => cases m <;> rfl

end

/-! ### The operations that make accesses -/

section

variable {s : State} {own : Out → Prop} (hn : ∀ t, own (.next t)) (len : Nat)

include hn

theorem ld8_guarded (dst : Loc8) (src : Src8) :
    Guarded s.reaches s own (src.reads len s ++ dst.at8 len s .write) (ld8 len dst src s) :=
  .settle (performs_rd8 src) fun v _ => .last (performs_wr8 dst v) fun _ => hn _

theorem exchangeA_guarded (src : Loc8) :
    Guarded s.reaches s own (src.at8 len s .read ++ src.at8 len s .write) (exchangeA len src s) :=
  .settle (performs_rdLoc8 src) fun _ _ => .last (performs_wr8 src s.a) fun _ => hn _

theorem exchangeTop_guarded (w : Reg16) :
    Guarded s.reaches s own (s.wordAt .read s.sp ++ s.wordAt .write s.sp) (exchangeTop len w s) := by
  refine .settle (l' := [_, _, _]) (performs_readByte s.curData s.sp) fun _ _ => ?_
  refine .settle (l' := [_, _]) (performs_readByte s.curData (s.sp + 1)) fun _ _ => ?_
  refine .settle (l' := [_]) (performs_writeByte s.curData s.sp _) fun t ht => ?_
  obtain ⟨p, -, rfl⟩ := writeByte_eq_ok.mp ht
  exact .last (performs_writeByte (s := s.putByte p _) s.curData (s.sp + 1) _) fun _ => hn _

theorem ldw_guarded (dst : Loc16) (nn : Word) :
    Guarded s.reaches s own (dst.at16 len s .write) (ldw len dst nn s) :=
  .last (performs_wr16 dst nn) fun _ => hn _

theorem blockLoad_guarded (d : Dir) (rep : Bool) :
    Guarded s.reaches s own [⟨s.curData, .read, s.hl⟩, ⟨s.curData, .write, s.de⟩] (blockLoad d rep s) :=
  .settle (performs_readByte s.curData s.hl) fun v _ => .last (performs_writeByte s.curData s.de v) fun _ => hn _

theorem blockCompare_guarded (d : Dir) (rep : Bool) :
    Guarded s.reaches s own [⟨s.curData, .read, s.hl⟩] (blockCompare d rep s) :=
  .last (performs_readByte s.curData s.hl) fun _ => hn _

theorem dec8_guarded (dst : Loc8) :
    Guarded s.reaches s own (dst.at8 len s .read ++ dst.at8 len s .write) (dec8 len dst s) :=
  .settle (performs_rdLoc8 dst) fun _ _ => .last (performs_wr8 dst _) fun _ => hn _

theorem inc8_guarded (dst : Loc8) :
    Guarded s.reaches s own (dst.at8 len s .read ++ dst.at8 len s .write) (inc8 len dst s) :=
  .settle (performs_rdLoc8 dst) fun _ _ => .last (performs_wr8 dst _) fun _ => hn _

theorem decw_guarded (dst : Loc16) :
    Guarded s.reaches s own (dst.at16 len s .read ++ dst.at16 len s .write) (decw len dst s) :=
  .settle (performs_rdLoc16 dst) fun _ _ => .last (performs_wr16 dst _) fun _ => hn _

theorem incw_guarded (dst : Loc16) :
    Guarded s.reaches s own (dst.at16 len s .read ++ dst.at16 len s .write) (incw len dst s) :=
  .settle (performs_rdLoc16 dst) fun _ _ => .last (performs_wr16 dst _) fun _ => hn _

theorem bitTest_guarded (b : BitVec 3) (l : Loc8) :
    Guarded s.reaches s own (l.at8 len s .read) (bitTest len b l s) :=
  .last (performs_rdLoc8 l) fun _ => hn _

end

/-! ### The ends of an instruction -/

/-- DIV, DIVU, DIVW and DIVUW (60_exceptions.md R334). -/
def DivisionForm (i : Instr) : Prop :=
  (∃ len src, Alu8Form .div i len src ∨ Alu8Form .divu i len src)
    ∨ ∃ len src, Alu16Form .divw i len src ∨ Alu16Form .divuw i len src

/-- The Inhibit User I/O bit keeps an input from being made (47_io.md R282). -/
def State.inhibited (s : State) : Prop := s.mode = .user ∧ s.tcr.getLsbD s.cfg.tcrI = true

/-- What an instruction begun in `s` is aborted to: `s`, or `s` with the transaction of an input made (R331 (a)). -/
def AbortedTo (s : State) (i : Instr) (u : State) : Prop :=
  u = s ∨ isInput i = true ∧ ∃ a w, u = s.ioDone a w

/-- What the instruction `i` begun in `s` can end in. -/
inductive Ends (s : State) (i : Instr) : Out → Prop
  | next (t : State) : Ends s i (.next t)
  | violation {l : List MemAccess} {x : MemAccess} {v : Violation} {u : State} (hl : Accesses s i l) (hx : x ∈ l)
      (hv : s.reaches x = .error (.violation v)) (hu : AbortedTo s i u) :
      Ends s i (.fault (.accessViolation v { u with mmuLatch := Config.latchedPart v.addr }))
  | division (c : DivisionCause) (t : State) (h : DivisionForm i) : Ends s i (.fault (.divisionException c t))
  | stackWarning {len : Nat} {c : Cond} {m : MemOperand} (t : State) (hm : s.mode = .system) (h : CallForm i len c m) :
      Ends s i (.fault (.systemStackOverflowWarning t))
  | privileged (t : State) (hm : s.mode = .user)
      (h : alwaysPrivileged i = true ∨ isInput i = true ∧ s.tcr.getLsbD s.cfg.tcrI = true) :
      Ends s i (.fault (.privilegedInstruction t))
  | breakpointOnHalt (t : State) (hm : s.mode = .system) (h : i = .halt) : Ends s i (.fault (.breakpointOnHalt t))
  | noMemory {l : List MemAccess} {x : MemAccess} (hl : Accesses s i l) (hx : x ∈ l)
      (hv : s.reaches x = .error .noMemory) : Ends s i (.refused .noMemoryThere)
  | maskBitSeven (mask : Byte) (hm : s.mode = .system) (h7 : mask.getLsbD 7 = true)
      (h : i = .diMask mask ∨ i = .eiMask mask) : Ends s i (.refused .maskBitSeven)
  | noControlRegister {len : Nat} {w : Reg16} (hm : s.mode = .system) (hc : controlReg? (s.reg8 .c) = none)
      (h : ReadControlForm i len w ∨ WriteControlForm i len w) : Ends s i (.refused .noControlRegister)
  | interruptStatusWrite {len : Nat} {w : Reg16} (hm : s.mode = .system) (hc : controlReg? (s.reg8 .c) = some .isr)
      (h : WriteControlForm i len w) : Ends s i (.refused .interruptStatusWrite)
  | daaOutsideTable (h : i = .daa) (hd : daaRow s.f s.a = none) : Ends s i (.refused .daaOutsideTable)
  | wordInputOnByteBus {d : Dir} {rep : Bool} (hx : s.wordInputExternal = true) (h : BlockInputForm i .word d rep) :
      Ends s i (.refused .wordInputOnByteBus)

section

variable {s : State} {i : Instr} {len : Nat} {l : List MemAccess}

theorem Ends.privCheck {k : Out} (hi : alwaysPrivileged i = true) (hk : s.mode = .system → Ends s i k) :
    Ends s i (privCheck s k) := by
  cases hm : s.mode with
  | user => rw [privCheck_user hm]; exact .privileged _ hm (.inl hi)
  | system => rw [privCheck_system hm]; exact hk hm

theorem ioPrivCheck_inhibited (h : s.inhibited) (k : Out) : ioPrivCheck s k = raise .privileged s := if_pos h

theorem ioPrivCheck_open (h : ¬s.inhibited) (k : Out) : ioPrivCheck s k = k := if_neg h

theorem Ends.ofInhibited (hi : isInput i = true) (h : s.inhibited) : Ends s i (raise .privileged s) :=
  .privileged _ h.1 (.inr ⟨hi, h.2⟩)

theorem Ends.ioPrivCheck {k : Out} (hi : isInput i = true) (hk : Ends s i k) : Ends s i (ioPrivCheck s k) := by
  by_cases h : s.inhibited
  · rw [ioPrivCheck_inhibited h]; exact .ofInhibited hi h
  · rw [ioPrivCheck_open h]; exact hk

theorem Ends.divisionTrap (h : DivisionForm i) (c : DivisionCause) : Ends s i (divisionTrap c s) := .division c _ h

/-! ### Divisions, calls and inputs -/

/-- The three cases of a division: two of them trap (R334). -/
theorem Ends.quotient {zero big : Prop} [Decidable zero] [Decidable big] (h : DivisionForm i) (t : State) :
    Ends s i (if zero then Machine.divisionTrap .zeroDivisor s
      else if big then Machine.divisionTrap .overflow s else .next t) := by
  split
  · exact .divisionTrap h _
  · split
    · exact .divisionTrap h _
    · exact .next t

theorem div8_guarded (h : DivisionForm i) (src : Src8) :
    Guarded s.reaches s (Ends s i) (src.reads len s) (div8 len src s) :=
  .last (performs_rd8 src) fun _ => .quotient h _

theorem divu8_guarded (h : DivisionForm i) (src : Src8) :
    Guarded s.reaches s (Ends s i) (src.reads len s) (divu8 len src s) :=
  .last (performs_rd8 src) fun _ => .quotient h _

theorem divw_guarded (h : DivisionForm i) (src : Src16) :
    Guarded s.reaches s (Ends s i) (src.reads len s) (divw len src s) :=
  .last (performs_rd16 src) fun _ => .quotient h _

theorem divuw_guarded (h : DivisionForm i) (src : Src16) :
    Guarded s.reaches s (Ends s i) (src.reads len s) (divuw len src s) :=
  .last (performs_rd16 src) fun _ => .quotient h _

theorem Alu8Form.guarded {op : Alu8} {src : Src8} (h : Alu8Form op i len src) :
    Guarded s.reaches s (Ends s i) (src.reads len s) (exec i s) := by
  rw [h.exec_eq]
  cases op with
  | div => exact div8_guarded (.inl ⟨len, src, .inl h⟩) src
  | divu => exact divu8_guarded (.inl ⟨len, src, .inr h⟩) src
  | adc | add | and | cp => exact .last (performs_rd8 src) fun _ => .next _

theorem Alu16Form.guarded {op : Alu16} {src : Src16} (h : Alu16Form op i len src) :
    Guarded s.reaches s (Ends s i) (src.reads len s) (exec i s) := by
  rw [h.exec_eq]
  cases op with
  | divw => exact divw_guarded (.inr ⟨len, src, .inl h⟩) src
  | divuw => exact divuw_guarded (.inr ⟨len, src, .inr h⟩) src
  | addw | cpw => exact .last (performs_rd16 src) fun _ => .next _

/-- The warning is pending only in system mode (R338). -/
theorem mode_of_warns {sp : Word} (h : s.warns sp = true) : s.mode = .system := by
  simp only [State.warns, Bool.and_eq_true, decide_eq_true_eq] at h
  exact h.1.1

theorem CallForm.guarded {c : Cond} {m : MemOperand} (h : CallForm i len c m) (hc : c.holds s = true) :
    Guarded s.reaches s (Ends s i) (s.wordAt .write (s.sp - 2)) (exec i s) := by
  rw [h.exec_eq, hc]
  refine .last (performs_push16 _) fun t => ?_
  split
  · exact .stackWarning _ (mode_of_warns ‹_›) h
  · exact .next _

/-- The I/O address that B and C name (47_io.md R280). -/
abbrev State.portBC (s : State) : IoAddr := s.ioAddr (s.reg8 .b) (s.reg8 .c)

theorem inputC_guarded (dst : Loc8) (ho : ¬s.inhibited) :
    Guarded s.reaches (s.ioDone s.portBC .byte) (Ends s i) (dst.at8 len s .write)
      (inputC len dst s) := by
  rw [inputC, ioPrivCheck_open ho, ← at8_ioDone dst s.portBC .byte]
  exact .last (performs_wr8 (s := s.ioDone s.portBC .byte) dst _) fun _ => .next _

theorem blockInput_guarded (d : Dir) (rep : Bool) (ho : ¬s.inhibited) :
    Guarded s.reaches (s.ioDone s.portBC .byte) (Ends s i) [⟨s.curData, .write, s.hl⟩]
      (blockInput d rep s) := by
  rw [blockInput, ioPrivCheck_open ho]
  exact .last (performs_writeByte (s := s.ioDone s.portBC .byte) s.curData s.hl _) fun _ => .next _

theorem blockInputWord_guarded (d : Dir) (rep : Bool) (ho : ¬s.inhibited) (hx : s.wordInputExternal = false) :
    Guarded s.reaches (s.ioDone s.portBC .word) (Ends s i) (s.wordAt .write s.hl)
      (blockInputWord d rep s) := by
  rw [blockInputWord, ioPrivCheck_open ho, hx, if_neg Bool.false_ne_true]
  exact .last (performs_writeWord (s := s.ioDone s.portBC .word) s.curData s.hl _) fun _ => .next _

/-! ### The run of an instruction's accesses -/

/-- How an instruction with the accesses `l` runs: it makes them, or it is an input that is inhibited or refused before
it makes any. -/
inductive AccessRun (s : State) (i : Instr) (l : List MemAccess) : Prop
  | made {u : State} (hu : AbortedTo s i u) (h : Guarded s.reaches u (Ends s i) l (exec i s))
  | inhibited (hi : isInput i = true) (h : s.inhibited) (he : exec i s = raise .privileged s)
  | refused {d : Dir} {rep : Bool} (hi : BlockInputForm i .word d rep) (h : s.wordInputExternal = true)
      (he : exec i s = .refused .wordInputOnByteBus)

theorem InputForm.isInput_eq {dst : Loc8} (h : InputForm i len dst) : isInput i = true := by cases h <;> rfl

theorem BlockInputForm.isInput_eq {w : IoWidth} {d : Dir} {rep : Bool} (h : BlockInputForm i w d rep) :
    isInput i = true := by cases h <;> rfl

theorem InputForm.run {dst : Loc8} (h : InputForm i len dst) : AccessRun s i (dst.at8 len s .write) := by
  by_cases ho : s.inhibited
  · exact .inhibited h.isInput_eq ho (by rw [h.exec_eq, inputC, ioPrivCheck_inhibited ho])
  · exact .made (.inr ⟨h.isInput_eq, _, _, rfl⟩) (by rw [h.exec_eq]; exact inputC_guarded dst ho)

theorem BlockInputForm.run_byte {d : Dir} {rep : Bool} (h : BlockInputForm i .byte d rep) :
    AccessRun s i [⟨s.curData, .write, s.hl⟩] := by
  by_cases ho : s.inhibited
  · exact .inhibited h.isInput_eq ho (by simp only [h.exec_eq, blockInput, ioPrivCheck_inhibited ho])
  · exact .made (.inr ⟨h.isInput_eq, _, _, rfl⟩) (by rw [h.exec_eq]; exact blockInput_guarded d rep ho)

theorem BlockInputForm.run_word {d : Dir} {rep : Bool} (h : BlockInputForm i .word d rep) :
    AccessRun s i (s.wordAt .write s.hl) := by
  by_cases ho : s.inhibited
  · exact .inhibited h.isInput_eq ho (by simp only [h.exec_eq, blockInputWord, ioPrivCheck_inhibited ho])
  · cases hx : s.wordInputExternal with
    | true => exact .refused h hx (by simp only [h.exec_eq, blockInputWord, ioPrivCheck_open ho, hx, if_true])
    | false =>
      exact .made (.inr ⟨h.isInput_eq, _, _, rfl⟩) (by rw [h.exec_eq]; exact blockInputWord_guarded d rep ho hx)

/-- Every instruction but LDUD and LDUP, which report a violation in the flags (R141), makes its accesses in order. -/
theorem Accesses.run (h : Accesses s i l)
    (hu : ∀ (len : Nat) (k : Kind) (m : MemOperand), ¬UserLoadForm i len k m ∧ ¬UserStoreForm i len k m) :
    AccessRun s i l := by
  cases h with
  | load h => exact .made (.inl rfl) (by rw [h.exec_eq]; exact ld8_guarded .next _ _ _)
  | exchange h => exact .made (.inl rfl) (by rw [h.exec_eq]; exact exchangeA_guarded .next _ _)
  | userLoad h => exact absurd h (hu _ _ _).1
  | userStore h => exact absurd h (hu _ _ _).2
  | stackTop h => exact .made (.inl rfl) (by rw [h.exec_eq]; exact exchangeTop_guarded .next _ _)
  | loadWord h => exact .made (.inl rfl) (by rw [h.exec_eq]; exact ldw_guarded .next _ _ _)
  | blockLoad h => exact .made (.inl rfl) (by rw [h.exec_eq]; exact blockLoad_guarded .next _ _)
  | blockCompare h => exact .made (.inl rfl) (by rw [h.exec_eq]; exact blockCompare_guarded .next _ _)
  | alu8 h => exact .made (.inl rfl) h.guarded
  | @count8 d _ _ _ h =>
    cases d with
    | inc => exact .made (.inl rfl) (by rw [h.exec_eq]; exact inc8_guarded .next _ _)
    | dec => exact .made (.inl rfl) (by rw [h.exec_eq]; exact dec8_guarded .next _ _)
  | alu16 h => exact .made (.inl rfl) h.guarded
  | @count16 d _ _ _ h =>
    cases d with
    | inc => exact .made (.inl rfl) (by rw [h.exec_eq]; exact incw_guarded .next _ _)
    | dec => exact .made (.inl rfl) (by rw [h.exec_eq]; exact decw_guarded .next _ _)
  | bit h => exact .made (.inl rfl) (by rw [h.exec_eq]; exact bitTest_guarded .next _ _ _)
  | call h hc => exact .made (.inl rfl) (h.guarded hc)
  | input h => exact h.run
  | blockInput h => exact h.run_byte
  | blockInputWord h => exact h.run_word

theorem AccessRun.ends (hl : Accesses s i l) (h : AccessRun s i l) : Ends s i (exec i s) := by
  cases h with
  | made hu h =>
    obtain h | ⟨x, hx, e, he, h⟩ := h.ends
    · exact h
    · rw [h]
      cases e with
      | violation v => exact .violation hl hx he hu
      | noMemory => exact .noMemory hl hx he
  | inhibited hi h he => exact he ▸ .ofInhibited hi h
  | refused hi h he => exact he ▸ .wordInputOnByteBus h hi

/-! ### LDUD and LDUP, and the privileged instructions -/

theorem UserLoadForm.alwaysPrivileged_eq {k : Kind} {m : MemOperand} (h : UserLoadForm i len k m) :
    alwaysPrivileged i = true := by cases h <;> rfl

theorem UserStoreForm.alwaysPrivileged_eq {k : Kind} {m : MemOperand} (h : UserStoreForm i len k m) :
    alwaysPrivileged i = true := by cases h <;> rfl

theorem UserLoadForm.ends {k : Kind} {m : MemOperand} (h : UserLoadForm i len k m) : Ends s i (exec i s) := by
  rw [h.exec_eq]
  refine .privCheck h.alwaysPrivileged_eq fun _ => ?_
  split
  · exact .next _
  · next p hp =>
    split
    · exact .next _
    · next hm =>
      exact .noMemory (.userLoad h) List.mem_cons_self (reach_eq_noMemory.mpr ⟨p, hp, eq_false_of_ne_true hm⟩)

theorem UserStoreForm.ends {k : Kind} {m : MemOperand} (h : UserStoreForm i len k m) : Ends s i (exec i s) := by
  rw [h.exec_eq]
  refine .privCheck h.alwaysPrivileged_eq fun _ => ?_
  split
  · exact .next _
  · next p hp =>
    split
    · exact .next _
    · next hm =>
      exact .noMemory (.userStore h) List.mem_cons_self (reach_eq_noMemory.mpr ⟨p, hp, eq_false_of_ne_true hm⟩)

theorem Accesses.ends (h : Accesses s i l) : Ends s i (exec i s) := by
  by_cases hu : ∀ (len : Nat) (k : Kind) (m : MemOperand), ¬UserLoadForm i len k m ∧ ¬UserStoreForm i len k m
  · exact (h.run hu).ends h
  · simp only [not_forall, not_and_or, not_not] at hu
    obtain ⟨_, _, _, load | store⟩ := hu
    · exact load.ends
    · exact store.ends

theorem CallForm.ends {c : Cond} {m : MemOperand} (h : CallForm i len c m) : Ends s i (exec i s) := by
  cases hc : c.holds s with
  | true => exact (Accesses.call h hc).ends
  | false =>
    rw [h.exec_eq, hc]
    exact .next _

theorem enableInterrupts_ends (mask : Byte) (hi : i = .eiMask mask) : Ends s i (enableInterrupts len mask s) :=
  .privCheck (by rw [hi]; rfl) fun hm => by
    split
    · exact .maskBitSeven mask hm ‹_› (.inr hi)
    · exact .next _

theorem disableInterrupts_ends (mask : Byte) (hi : i = .diMask mask) : Ends s i (disableInterrupts len mask s) :=
  .privCheck (by rw [hi]; rfl) fun hm => by
    split
    · exact .maskBitSeven mask hm ‹_› (.inl hi)
    · exact .next _

theorem haltCpu_ends : Ends s .halt (haltCpu len s) :=
  .privCheck rfl fun hm => by
    split
    · exact .breakpointOnHalt _ hm rfl
    · exact .next _

theorem decimalAdjust_ends : Ends s .daa (decimalAdjust len s) := by
  unfold decimalAdjust
  split
  · exact .daaOutsideTable rfl ‹_›
  · exact .next _

theorem inputHL_ends (hi : isInput i = true) : Ends s i (inputHL len s) :=
  .ioPrivCheck hi <| by
    dsimp only
    split
    · exact .next _
    · exact .next _

theorem ReadControlForm.alwaysPrivileged_eq {w : Reg16} (h : ReadControlForm i len w) : alwaysPrivileged i = true := by
  cases h <;> rfl

theorem WriteControlForm.alwaysPrivileged_eq {w : Reg16} (h : WriteControlForm i len w) :
    alwaysPrivileged i = true := by
  cases h <;> rfl

theorem ReadControlForm.ends {w : Reg16} (h : ReadControlForm i len w) : Ends s i (exec i s) := by
  rw [h.exec_eq]
  refine .privCheck h.alwaysPrivileged_eq fun hm => ?_
  split
  · exact .noControlRegister hm ‹_› (.inl h)
  · exact .next _

theorem writeControl_eq_none {g : ControlReg} {v : Word} (h : writeControl g v s = none) : g = .isr := by
  cases g <;> cases h
  rfl

theorem WriteControlForm.ends {w : Reg16} (h : WriteControlForm i len w) : Ends s i (exec i s) := by
  rw [h.exec_eq]
  refine .privCheck h.alwaysPrivileged_eq fun hm => ?_
  split
  · exact .noControlRegister hm ‹_› (.inr h)
  · next g hc =>
    split
    · next hw => exact .interruptStatusWrite hm (writeControl_eq_none hw ▸ hc) h
    · exact .next _

end

/-- How each instruction ends, family by family. -/
theorem exec_ends (i : Instr) (s : State) : Ends s i (exec i s) := by
  cases i with
  | ldReg | ldGRx | ldRxRx | ldRxG | ldRHl | ldRSx | ldHlR | ldSxR | ldRN | ldRxN | ldHlN | ldDaN | ldXN | ldSxN
  | ldRaN | ldSrN | ldBxN | ldAIr | ldADa | ldAX | ldARa | ldASr | ldABx | ldIrA | ldDaA | ldXA | ldRaA | ldSrA
  | ldBxA => exact (Accesses.load (by constructor)).ends
  | exAR | exARx | exAHl | exADa | exAX | exASx | exARa | exASr | exABx =>
    exact (Accesses.exchange (by constructor)).ends
  | ldudAHl | ldudASx | ldupAHl | ldupASx => exact UserLoadForm.ends (by constructor)
  | ldudHlA | ldudSxA | ldupHlA | ldupSxA => exact UserStoreForm.ends (by constructor)
  | exSpHl | exSpXy => exact (Accesses.stackTop (by constructor)).ends
  | ldwRrN | ldwXyN | ldwHlN | ldwDaN | ldwRaN => exact (Accesses.loadWord (by constructor)).ends
  | ldi | ldd | ldir | lddr => exact (Accesses.blockLoad (by constructor)).ends
  | cpi | cpd | cpir | cpdr => exact (Accesses.blockCompare (by constructor)).ends
  | adcAR | adcARx | adcAN | adcAHl | adcADa | adcAX | adcASx | adcARa | adcASr | adcABx | addAR | addARx | addAN
  | addAHl | addADa | addAX | addASx | addARa | addASr | addABx | andAR | andARx | andAN | andAHl | andADa | andAX
  | andASx | andARa | andASr | andABx | cpAR | cpARx | cpAN | cpAHl | cpADa | cpAX | cpASx | cpARa | cpASr | cpABx
  | divR | divRx | divN | divHl | divDa | divX | divSx | divRa | divSr | divBx | divuR | divuRx | divuN | divuHl
  | divuDa | divuX | divuSx | divuRa | divuSr | divuBx => exact (Accesses.alu8 (by constructor)).ends
  | decR | decRx | decHl | decDa | decX | decSx | decRa | decSr | decBx | incR | incRx | incHl | incDa | incX
  | incSx | incRa | incSr | incBx => exact (Accesses.count8 (by constructor)).ends
  | addwRr | addwXy | addwN | addwDa | addwX | addwRa | addwHl | cpwRr | cpwXy | cpwN | cpwDa | cpwX | cpwRa
  | cpwHl | divwRr | divwXy | divwN | divwDa | divwX | divwRa | divwHl | divuwRr | divuwXy | divuwN | divuwDa
  | divuwX | divuwRa | divuwHl => exact (Accesses.alu16 (by constructor)).ends
  | decwRr | decwXy | decwHl | decwDa | decwX | decwRa | incwRr | incwXy | incwHl | incwDa | incwX | incwRa =>
    exact (Accesses.count16 (by constructor)).ends
  | bitR | bitHl | bitSx => exact (Accesses.bit (by constructor)).ends
  | callCcHl | callHl | callCc | callDa | callCcRa | callRa => exact CallForm.ends (by constructor)
  | inR | inRx | inDa | inX | inRa | inSr | inBx => exact (Accesses.input (by constructor)).ends
  | ini | ind | inir | indr => exact (Accesses.blockInput (by constructor)).ends
  | iniw | indw | inirw | indrw => exact (Accesses.blockInputWord (by constructor)).ends
  | ldctlHlC | ldctlXyC => exact ReadControlForm.ends (by constructor)
  | ldctlCHl | ldctlCXy => exact WriteControlForm.ends (by constructor)
  | ldctlHlUsp | ldctlXyUsp | ldctlUspHl | ldctlUspXy | im0 | im1 | im2 | im3 | ldIA | ldRfA | ldAI | ldARf =>
    exact .privCheck rfl fun _ => .next _
  | exDeHl | exXyHl | ldaHlX | ldaXyX | ldaHlRa | ldaXyRa | ldaHlSr | ldaXySr | ldaHlBx | ldaXyBx | adcHlRr
  | adcXyRr | addHlRr | addXyRr | addHlA | addXyA | jpCcHl | jpHl | jpXy | jpCc | jpDa | jpCcRa | jpRa | jrCc | jr
  | jaf | jar | djnz | exHL | exAfAf | exx | cpl | extsA | extsHl | ccf => exact .next _
  | di | ei => exact .privCheck rfl fun _ => .next _
  | diMask mask => exact disableInterrupts_ends mask rfl
  | eiMask mask => exact enableInterrupts_ends mask rfl
  | halt => exact haltCpu_ends
  | daa => exact decimalAdjust_ends
  | inAN => exact .ioPrivCheck rfl (.next _)
  | inw => exact inputHL_ends rfl

/-! ### The statements -/

section

variable {s : State} {i : Instr}

theorem wordInputExternal_iff :
    s.wordInputExternal = true ↔ s.cfg.bus16 = false ∧ s.iop ≠ 0xFE ∧ s.iop ≠ 0xFF := by
  simp [State.wordInputExternal, and_assoc]

/-- The address in C that the table does not list. -/
theorem not_listed_of_controlReg? {c : Byte} (h : controlReg? c = none) :
    c ∉ [(0x00 : Byte), 0x02, 0x04, 0x06, 0x08, 0x10, 0x12, 0x14, 0x16, 0xFF] := by
  simp only [List.mem_cons, List.not_mem_nil, or_false]
  rintro (rfl | rfl | rfl | rfl | rfl | rfl | rfl | rfl | rfl | rfl) <;> cases h

theorem controlReg?_eq_isr {c : Byte} (h : controlReg? c = some .isr) : c = 0x16 := by
  unfold controlReg? at h
  split_ifs at h <;> cases h
  assumption

theorem accessViolation_ends {v : Violation} {f : State} (h : exec i s = .fault (.accessViolation v f)) :
    ∃ u, AbortedTo s i u ∧ f = { u with mmuLatch := Config.latchedPart v.addr } := by
  have ends := exec_ends i s
  rw [h] at ends
  cases ends with
  | violation _ _ _ hu => exact ⟨_, hu, rfl⟩

theorem AbortedTo.restores {u : State} (h : AbortedTo s i u) :
    { u with mmuLatch := s.mmuLatch, ioTrace := s.ioTrace } = s
      ∧ (∃ l : List IoEvent, u.ioTrace = s.ioTrace ++ l ∧ l.length ≤ 1)
      ∧ (isInput i = false → u.ioTrace = s.ioTrace) := by
  obtain rfl | ⟨hi, a, w, rfl⟩ := h
  · exact ⟨rfl, ⟨[], (List.append_nil _).symm, Nat.zero_le 1⟩, fun _ => rfl⟩
  · exact ⟨rfl, ⟨_, rfl, le_rfl⟩, fun h => by rw [hi] at h; cases h⟩

/-- A step faults by the Single-Step bit, by its fetch or by its instruction. -/
theorem step_eq_fault {f : Fault} (h : step s = .fault f) :
    f = .singleStep ∨ (∃ e, stop e s = .fault f) ∨ ∃ i, exec i s = .fault f := by
  unfold step at h
  split at h
  · cases h
  · split at h
    · cases h
      exact .inl rfl
    · split at h
      · exact .inr (.inl ⟨_, h⟩)
      · cases h
      · exact .inr (.inr ⟨_, h⟩)

end

/-- Settles O12: a fetch aborts to the state itself, an instruction to that state or to it after one transaction. -/
theorem accessViolationRestores : Obligations.AccessViolationRestores := by
  intro s f v
  refine ⟨fun h => ?_, fun i hi h => ?_⟩
  · obtain h | ⟨e, h⟩ | ⟨i, h⟩ := step_eq_fault h
    · cases h
    · obtain ⟨v', -, h⟩ := stop_eq_fault.mp h
      cases h
      exact ⟨rfl, rfl, [], (List.append_nil _).symm, Nat.zero_le 1⟩
    · obtain ⟨u, hu, rfl⟩ := accessViolation_ends h
      exact ⟨rfl, hu.restores.1, hu.restores.2.1⟩
  · obtain ⟨u, hu, rfl⟩ := accessViolation_ends h
    exact hu.restores.2.2 hi

/-- Settles O13: the faults among the ends of an instruction, and conversely the run of its accesses. -/
theorem trapsByInstruction : Obligations.TrapsByInstruction := by
  constructor
  · intro i s f h
    have ends := exec_ends i s
    rw [h] at ends
    cases ends with
    | division c t form => exact .inl ⟨rfl, form⟩
    | stackWarning t hm form => exact .inr (.inl ⟨rfl, hm, _, _, _, form⟩)
    | privileged t hm why => exact .inr (.inr (.inl ⟨rfl, hm, why⟩))
    | breakpointOnHalt t hm halt => exact .inr (.inr (.inr (.inl ⟨rfl, hm, halt⟩)))
    | violation hl hx hv hu =>
      obtain ⟨space, access, addr, reported⟩ := violation_of_reach hv
      refine .inr (.inr (.inr (.inr ⟨_, _, rfl, ⟨_, hl, ?_⟩, ?_⟩)))
      · rw [space, access, addr]
        exact hx
      · rw [space, access, addr]
        exact reported
  · intro i s before after x wp valid hl hu hv
    have reached := reach_of_violation hv
    have run := hl.run hu
    constructor
    · intro t ht
      cases run with
      | made _ run =>
        obtain ⟨p, hp⟩ := run.next ht x (by simp)
        cases reached.symm.trans hp
      | inhibited _ _ he => exact raise_ne_next _ _ _ (he.symm.trans ht)
      | refused _ _ he => cases he.symm.trans ht
    · intro notInhibited notRefused hb
      cases run with
      | made hu run =>
        exact ⟨_, run.first (firstViolation_of_before hb reached), rfl, hu.restores.1⟩
      | inhibited hi h _ => exact absurd ⟨hi, h⟩ notInhibited
      | refused hi h _ =>
        obtain ⟨bus, notFE, notFF⟩ := wordInputExternal_iff.mp h
        exact absurd ⟨bus, notFE, notFF, _, _, hi⟩ notRefused

/-- Settles O14: the refusals among the ends of an instruction. -/
theorem refusalsByInstruction : Obligations.RefusalsByInstruction := by
  intro i s r h
  have ends := exec_ends i s
  rw [h] at ends
  cases ends with
  | noMemory hl hx hv =>
    obtain ⟨p, phys, hole⟩ := reach_eq_noMemory.mp hv
    exact .inl ⟨rfl, _, _, _, p, ⟨_, hl, hx⟩, phys, hole⟩
  | maskBitSeven mask hm h7 form => exact .inr (.inl ⟨rfl, hm, mask, h7, form⟩)
  | noControlRegister hm hc form =>
    exact .inr (.inr (.inl ⟨rfl, hm, not_listed_of_controlReg? hc, _, _, form⟩))
  | interruptStatusWrite hm hc form =>
    exact .inr (.inr (.inr (.inl ⟨rfl, hm, controlReg?_eq_isr hc, _, _, form⟩)))
  | daaOutsideTable daa hd =>
    exact .inr (.inr (.inr (.inr (.inl ⟨rfl, daa, fun row hr => by simpa using List.find?_eq_none.mp hd row hr⟩))))
  | wordInputOnByteBus hx form =>
    obtain ⟨bus, notFE, notFF⟩ := wordInputExternal_iff.mp hx
    exact .inr (.inr (.inr (.inr (.inr ⟨rfl, bus, notFE, notFF, _, _, form⟩))))

end Sys2Proof.Machine
end

section
/-! PROOFS. The decoder and the encoder are inverse (30_encoding.md R91, R92, R116). Decoding an encoding evaluates a page
at a literal opcode byte, since a register operand has finitely many codes. The other way goes row by row: the fixed
bits of a row and its fields make the opcode byte up, and the operand bytes are copied. -/

namespace Sys2Proof

/-! ### What an encoding decodes to -/

/-- With the register operands fixed the opcode byte is literal and its page is evaluated; an operand byte is passed on
unread, and an operand word is made of its two bytes again. The cases are grouped by their operands: words alone,
register operands alone, both, and a bit number; the last group has bytes at most. -/
theorem decode_encode (i : Instr) (wf : i.wellFormed = true) (rest : List Byte) :
    decode (encode i ++ rest) = .ok i rest := by
  cases i with
  | ldDaN nn | ldRaN nn | ldSrN nn | ldADa nn | ldARa nn | ldASr nn | ldDaA nn | ldRaA nn | ldSrA nn | exADa nn
  | exARa nn | exASr nn | ldaHlRa nn | ldaHlSr nn | ldwHlN nn | adcADa nn | adcARa nn | adcASr nn | addADa nn
  | addARa nn | addASr nn | andADa nn | andARa nn | andASr nn | cpADa nn | cpARa nn | cpASr nn | decDa nn
  | decRa nn | decSr nn | divDa nn | divRa nn | divSr nn | divuDa nn | divuRa nn | divuSr nn | incDa nn
  | incRa nn | incSr nn | addwN nn | addwDa nn | addwRa nn | cpwN nn | cpwDa nn | cpwRa nn | decwDa nn
  | decwRa nn | divwN nn | divwDa nn | divwRa nn | divuwN nn | divuwDa nn | divuwRa nn | incwDa nn | incwRa nn
  | callDa nn | callRa nn | jpDa nn | jpRa nn | inDa nn | inRa nn | inSr nn =>
    conv_rhs => rw [← joinBytes_hiByte_loByte nn]
    rfl
  | ldwDaN nn mm | ldwRaN nn mm =>
    conv_rhs => rw [← joinBytes_hiByte_loByte nn, ← joinBytes_hiByte_loByte mm]
    rfl
  | ldRHl x | ldHlR x | ldRN x | ldSxN x | ldBxN x | ldAIr x | ldABx x | ldIrA x | ldBxA x | exAR x | exASx x
  | exABx x | ldudASx x | ldudSxA x | ldupASx x | ldupSxA x | exXyHl x | exSpXy x | ldaHlBx x | adcAR x
  | adcASx x | adcABx x | addAR x | addASx x | addABx x | andAR x | andASx x | andABx x | cpAR x | cpASx x
  | cpABx x | decR x | decSx x | decBx x | divR x | divSx x | divBx x | divuR x | divuSx x | divuBx x | incR x
  | incSx x | incBx x | adcHlRr x | addHlRr x | addXyA x | addwRr x | addwXy x | cpwRr x | cpwXy x | decwRr x
  | decwXy x | divwRr x | divwXy x | divuwRr x | divuwXy x | incwRr x | incwXy x | callCcHl x | jpCcHl x
  | jpXy x | jrCc x | inR x | inBx x | ldctlXyC x | ldctlCXy x | ldctlXyUsp x | ldctlUspXy x =>
    cases x <;> rfl
  | ldXN x nn | ldAX x nn | ldXA x nn | exAX x nn | ldaHlX x nn | ldaXyRa x nn | ldaXySr x nn | ldwRrN x nn
  | ldwXyN x nn | adcAX x nn | addAX x nn | andAX x nn | cpAX x nn | decX x nn | divX x nn | divuX x nn
  | incX x nn | addwX x nn | cpwX x nn | decwX x nn | divwX x nn | divuwX x nn | incwX x nn | callCc x nn
  | callCcRa x nn | jpCc x nn | jpCcRa x nn | inX x nn =>
    conv_rhs => rw [← joinBytes_hiByte_loByte nn]
    cases x <;> rfl
  | ldReg x y | ldRSx x y | ldSxR x y | ldRxN x y | exARx x y | ldaXyBx x y | adcARx x y | addARx x y
  | andARx x y | cpARx x y | decRx x y | divRx x y | divuRx x y | incRx x y | adcXyRr x y | addXyRr x y
  | inRx x y =>
    cases x <;> cases y <;> rfl
  | ldaXyX x y nn =>
    conv_rhs => rw [← joinBytes_hiByte_loByte nn]
    cases x <;> cases y <;> rfl
  | ldRxRx x y z =>
    cases x <;> cases y <;> cases z <;> rfl
  | bitHl bit =>
    rcases bit with ⟨n⟩
    fin_cases n <;> rfl
  | bitR bit x =>
    rcases bit with ⟨n⟩
    fin_cases n <;> cases x <;> rfl
  | bitSx x _ bit =>
    rcases bit with ⟨n⟩
    fin_cases n <;> cases x <;> rfl
  | ldGRx x g y =>
    cases g with
    | h | l => cases wf
    | _ => cases x <;> cases y <;> rfl
  | ldRxG x y g =>
    cases g with
    | h | l => cases wf
    | _ => cases x <;> cases y <;> rfl
  | _ => rfl

/-- Settles O1: the case split of `decode_encode`. -/
theorem decodeEncodeRoundTrip : Obligations.DecodeEncodeRoundTrip := decode_encode

/-! ### The codes of the fields (R92) -/

@[simp] theorem r8?_eq_some {n : Nat} {x : R8} : r8? n = some x ↔ n = x.code := by
  constructor
  · intro h
    unfold r8? at h
    split at h <;> cases h <;> rfl
  · rintro rfl
    cases x <;> rfl

@[simp] theorem xx?_eq_some {n : Nat} {x : XX} : xx? n = some x ↔ n = x.code := by
  constructor
  · intro h
    unfold xx? at h
    split at h <;> cases h <;> rfl
  · rintro rfl
    cases x <;> rfl

@[simp] theorem bx?_eq_some {n : Nat} {x : BX} : bx? n = some x ↔ n = x.code := by
  constructor
  · intro h
    unfold bx? at h
    split at h <;> cases h <;> rfl
  · rintro rfl
    cases x <;> rfl

@[simp] theorem star?_eq_some {n : Nat} {g : R8} : star? n = some g ↔ n = g.code ∧ g.starOk = true := by
  constructor
  · intro h
    unfold star? at h
    split at h <;> cases h <;> exact ⟨rfl, rfl⟩
  · rintro ⟨rfl, ok⟩
    cases g with
    | h | l => cases ok
    | _ => rfl

theorem bits_lt (op : Byte) (lo w : Nat) : bits op lo w < 2 ^ w := Nat.mod_lt _ (Nat.two_pow_pos w)

@[simp] theorem bits_three_mod (op : Byte) (lo : Nat) : bits op lo 3 % 8 = bits op lo 3 :=
  Nat.mod_eq_of_lt (bits_lt op lo 3)

@[simp] theorem code_halfOf (op : Byte) (lo : Nat) : (halfOf (bits op lo 1)).code = bits op lo 1 := by
  have := bits_lt op lo 1
  interval_cases bits op lo 1 <;> rfl

@[simp] theorem code_xyOf (op : Byte) (lo : Nat) : (xyOf (bits op lo 1)).code = bits op lo 1 := by
  have := bits_lt op lo 1
  interval_cases bits op lo 1 <;> rfl

@[simp] theorem code_bdOf (op : Byte) (lo : Nat) : (bdOf (bits op lo 1)).code = bits op lo 1 := by
  have := bits_lt op lo 1
  interval_cases bits op lo 1 <;> rfl

@[simp] theorem code_rrOf (op : Byte) (lo : Nat) : (rrOf (bits op lo 2)).code = bits op lo 2 := by
  have := bits_lt op lo 2
  interval_cases bits op lo 2 <;> rfl

@[simp] theorem code_rrxOf (op : Byte) (lo : Nat) : (rrxOf (bits op lo 2)).code = bits op lo 2 := by
  have := bits_lt op lo 2
  interval_cases bits op lo 2 <;> rfl

@[simp] theorem code_jccOf (op : Byte) (lo : Nat) : (jccOf (bits op lo 2)).code = bits op lo 2 := by
  have := bits_lt op lo 2
  interval_cases bits op lo 2 <;> rfl

@[simp] theorem code_ccOf (op : Byte) (lo : Nat) : (ccOf (bits op lo 3)).code = bits op lo 3 := by
  have := bits_lt op lo 3
  interval_cases bits op lo 3 <;> rfl

/-! ### Fixed bits and fields make an opcode byte up -/

/-- A byte is its bits under `mask` and, where the mask is 0, its fields, each in its place. -/
def Layout (mask : Byte) (fields : Byte → Nat) : Prop := ∀ op : Byte, op = opb ((op &&& mask).toNat + fields op)

/-! The layouts of the opcode pages, named by the bits the fields take. -/

theorem layout_2to0 : Layout 0xF8 fun op => bits op 0 3 := by
  unfold Layout
  decide

theorem layout_5to3 : Layout 0xC7 fun op => 8 * bits op 3 3 := by
  unfold Layout
  decide

theorem layout_5to3_2to0 : Layout 0xC0 fun op => 8 * bits op 3 3 + bits op 0 3 := by
  unfold Layout
  decide

theorem layout_5to3_0 : Layout 0xC6 fun op => 8 * bits op 3 3 + bits op 0 1 := by
  unfold Layout
  decide

theorem layout_3_2to0 : Layout 0xF0 fun op => 8 * bits op 3 1 + bits op 0 3 := by
  unfold Layout
  decide

theorem layout_3_0 : Layout 0xF6 fun op => 8 * bits op 3 1 + bits op 0 1 := by
  unfold Layout
  decide

theorem layout_1to0 : Layout 0xFC fun op => bits op 0 2 := by
  unfold Layout
  decide

theorem layout_0 : Layout 0xFE fun op => bits op 0 1 := by
  unfold Layout
  decide

theorem layout_4to3 : Layout 0xE7 fun op => 8 * bits op 3 2 := by
  unfold Layout
  decide

theorem layout_3 : Layout 0xF7 fun op => 8 * bits op 3 1 := by
  unfold Layout
  decide

theorem layout_5to4 : Layout 0xCF fun op => 16 * bits op 4 2 := by
  unfold Layout
  decide

theorem layout_4 : Layout 0xEF fun op => 16 * bits op 4 1 := by
  unfold Layout
  decide

/-! ### What a row answers is encoded by the bytes it was given -/

/-- Where the row of the opcode byte `op` answers, the bytes after `op` that it takes are the ones the encoder writes
after the bytes `lead` and `op`. -/
def RowEncodes (lead : List Byte) (op : Byte) (row : Option Shape) : Prop :=
  ∀ n k, row = some (n, k) → ∀ bs : List Byte, n ≤ bs.length → encode (k bs) ++ bs.drop n = lead ++ op :: bs

section

variable {lead : List Byte} {op val : Byte} {row : Option Shape}

theorem rowEncodes_pat {mask : Byte} {fields : Byte → Nat} (layout : Layout mask fields) :
    RowEncodes lead op (pat op mask val row) ↔
      (op &&& mask = val → RowEncodes lead (opb (val.toNat + fields op)) row) := by
  by_cases fits : op &&& mask = val
  · have made := layout op
    rw [fits] at made
    simp [pat, fits, ← made]
  · simp [pat, fits, RowEncodes]

theorem rowEncodes_literal : RowEncodes lead op (pat op 0xFF val row) ↔ (op = val → RowEncodes lead val row) := by
  have whole : op &&& 0xFF = op := BitVec.and_allOnes
  rw [pat, whole]
  by_cases fits : op = val <;> simp [fits, RowEncodes]

theorem rowEncodes_only {q q' : XY} : RowEncodes lead op (only q q' row) ↔ (q = q' → RowEncodes lead op row) := by
  by_cases h : q = q' <;> simp [only, h, RowEncodes]

theorem rowEncodes_bind {α : Type} {x : Option α} {f : α → Option Shape} :
    RowEncodes lead op (x >>= f) ↔ ∀ a, x = some a → RowEncodes lead op (f a) := by
  cases x <;> simp [RowEncodes]

theorem rowEncodes_some_zero {k : List Byte → Instr} :
    RowEncodes lead op (some (0, k)) ↔ ∀ bs, encode (k bs) ++ bs = lead ++ op :: bs := by
  simp [RowEncodes]

/-- One operand byte more is one byte more before the rest. -/
theorem rowEncodes_some_succ {n : Nat} {k : List Byte → Instr} :
    RowEncodes lead op (some (n + 1, k)) ↔
      ∀ a, RowEncodes (lead ++ [op]) a (some (n, fun bs => k (a :: bs))) := by
  constructor
  · rintro h a _ _ ⟨⟩ bs enough
    simpa using h _ _ rfl (a :: bs) (by simpa using enough)
  · rintro h _ _ ⟨⟩ (_ | ⟨a, bs⟩) enough
    · cases enough
    · simpa using h a _ _ rfl bs (by simpa using enough)

end

/-! The operands as functions of the bytes. -/

@[simp] theorem at8_zero (a : Byte) (bs : List Byte) : at8 (a :: bs) 0 = a := rfl

@[simp] theorem at8_one (a b : Byte) (bs : List Byte) : at8 (a :: b :: bs) 1 = b := rfl

@[simp] theorem at8_two (a b c : Byte) (bs : List Byte) : at8 (a :: b :: c :: bs) 2 = c := rfl

@[simp] theorem at16_zero (a b : Byte) (bs : List Byte) : at16 (a :: b :: bs) 0 = joinBytes b a := rfl

@[simp] theorem at16_two (a b c d : Byte) (bs : List Byte) : at16 (a :: b :: c :: d :: bs) 2 = joinBytes d c := rfl

/-! The pages. Each row becomes, by its layout and its number of operand bytes, an equation between what the encoder
writes and the bytes before the rest. -/

theorem rows0_encode (op : Byte) : ∀ row ∈ rows0 op, RowEncodes [] op row := by
  simp only [rows0, List.forall_mem_cons, rowEncodes_some_zero, rowEncodes_some_succ, rowEncodes_bind,
    rowEncodes_literal, rowEncodes_pat layout_2to0, rowEncodes_pat layout_5to3, rowEncodes_pat layout_5to3_2to0,
    rowEncodes_pat layout_4, rowEncodes_pat layout_4to3, rowEncodes_pat layout_5to4]
  simp +contextual [encode, Nat.add_assoc]

theorem rowsED_encode (op : Byte) : ∀ row ∈ rowsED op, RowEncodes [0xED] op row := by
  simp only [rowsED, List.forall_mem_cons, rowEncodes_some_zero, rowEncodes_some_succ, rowEncodes_bind,
    rowEncodes_literal, rowEncodes_pat layout_5to3, rowEncodes_pat layout_4to3, rowEncodes_pat layout_5to4]
  simp +contextual [encode]

theorem rowsCB_encode (op : Byte) : ∀ row ∈ rowsCB op, RowEncodes [0xCB] op row := by
  simp only [rowsCB, List.forall_mem_cons, rowEncodes_some_zero, rowEncodes_bind,
    rowEncodes_pat layout_5to3, rowEncodes_pat layout_5to3_2to0]
  simp +contextual [encode, Nat.add_assoc]

theorem rowsXY_encode (q : XY) (op : Byte) : ∀ row ∈ rowsXY q op, RowEncodes [q.lead] op row := by
  simp only [rowsXY, List.forall_mem_cons, rowEncodes_some_zero, rowEncodes_some_succ, rowEncodes_bind,
    rowEncodes_only, rowEncodes_literal, rowEncodes_pat layout_2to0, rowEncodes_pat layout_5to3,
    rowEncodes_pat layout_3_2to0, rowEncodes_pat layout_5to3_0, rowEncodes_pat layout_3_0,
    rowEncodes_pat layout_4to3, rowEncodes_pat layout_1to0, rowEncodes_pat layout_3, rowEncodes_pat layout_0,
    rowEncodes_pat layout_4, rowEncodes_pat layout_5to4]
  simp +contextual [encode, XY.lead, Nat.add_assoc]

theorem rowsXYED_encode (q : XY) (op : Byte) : ∀ row ∈ rowsXYED q op, RowEncodes [q.lead, 0xED] op row := by
  simp only [rowsXYED, List.forall_mem_cons, rowEncodes_some_zero, rowEncodes_some_succ, rowEncodes_bind,
    rowEncodes_only, rowEncodes_literal, rowEncodes_pat layout_4to3, rowEncodes_pat layout_5to4,
    rowEncodes_pat layout_3, rowEncodes_pat layout_4]
  simp +contextual [encode, XY.lead]

/-! ### What a list of bytes that decodes is -/

theorem firstOf_mem {rows : List (Option Shape)} {x : Shape} (h : firstOf rows = some x) : some x ∈ rows := by
  induction rows with
  | nil => cases h
  | cons row rows ih =>
    cases row with
    | none => exact List.mem_cons_of_mem _ (ih h)
    | some y =>
      cases h
      exact List.mem_cons_self

theorem decodeOp_eq_ok {page : Byte → List (Option Shape)} {bs rest : List Byte} {i : Instr} :
    decodeOp page bs = .ok i rest ↔
      ∃ op ops n k, bs = op :: ops ∧ firstOf (page op) = some (n, k) ∧ n ≤ ops.length ∧ k ops = i
        ∧ ops.drop n = rest := by
  constructor
  · intro h
    cases bs with
    | nil => cases h
    | cons op ops =>
      rw [decodeOp] at h
      split at h
      · cases h
      · next n k row =>
        split at h
        · cases h
        · next enough =>
          cases h
          exact ⟨op, ops, n, k, rfl, row, Nat.le_of_not_lt enough, rfl, rfl⟩
  · rintro ⟨op, ops, n, k, rfl, row, enough, rfl, rfl⟩
    rw [decodeOp, row]
    exact if_neg (Nat.not_lt_of_le enough)

section

variable {bs rest : List Byte} {i : Instr}

theorem decodeOp_encodes {lead : List Byte} {page : Byte → List (Option Shape)}
    (rows : ∀ op, ∀ row ∈ page op, RowEncodes lead op row) (h : decodeOp page bs = .ok i rest) :
    encode i ++ rest = lead ++ bs := by
  obtain ⟨op, ops, n, k, rfl, row, enough, rfl, rfl⟩ := decodeOp_eq_ok.mp h
  exact rows op _ (firstOf_mem row) n k rfl ops enough

theorem rowXYCB_eq_some {q : XY} {d op : Byte} (h : rowXYCB q d op = some i) : encode i = [q.lead, 0xCB, d, op] := by
  unfold rowXYCB at h
  split at h
  · next fits =>
    cases h
    have made := layout_5to3 op
    rw [fits] at made
    conv_rhs => rw [made]
    simp [encode]
  · cases h

theorem decodeXYCB_encodes {q : XY} (h : decodeXYCB q bs = .ok i rest) :
    encode i ++ rest = q.lead :: 0xCB :: bs := by
  match bs with
  | [] | [_] => cases h
  | d :: op :: _ =>
    rw [decodeXYCB] at h
    split at h
    · cases h
    · next row =>
      cases h
      rw [rowXYCB_eq_some row]
      rfl

theorem decodeXY_encodes {q : XY} (h : decodeXY q bs = .ok i rest) : encode i ++ rest = q.lead :: bs := by
  cases bs with
  | nil => cases h
  | cons b bs =>
    rw [decodeXY] at h
    split_ifs at h with ed cb
    · exact ed ▸ decodeOp_encodes (rowsXYED_encode q) h
    · exact cb ▸ decodeXYCB_encodes h
    · exact decodeOp_encodes (rowsXY_encode q) h

theorem encode_of_decode (h : decode bs = .ok i rest) : encode i ++ rest = bs := by
  cases bs with
  | nil => cases h
  | cons b bs =>
    rw [decode] at h
    split_ifs at h with dd fd ed cb
    · exact dd ▸ decodeXY_encodes h
    · exact fd ▸ decodeXY_encodes h
    · exact ed ▸ decodeOp_encodes rowsED_encode h
    · exact cb ▸ decodeOp_encodes rowsCB_encode h
    · exact decodeOp_encodes rows0_encode h

end

/-- Settles O2: whatever page the first bytes choose, the row that answers is encoded by the bytes it was given. -/
theorem encodeDecodeRoundTrip : Obligations.EncodeDecodeRoundTrip := fun _ _ _ => encode_of_decode

/-- Settles O3: each word is read by its page. -/
theorem decodedWords : Obligations.DecodedWords := ⟨rfl, rfl, rfl, rfl, rfl, rfl, rfl, rfl, rfl⟩

/-! ### An instruction's bytes decide at their last byte (R116) -/

section

variable {bs : List Byte} {i : Instr} {k : Nat}

theorem decodeOp_take {page : Byte → List (Option Shape)} (h : decodeOp page bs = .ok i []) (hk : k < bs.length) :
    decodeOp page (bs.take k) = .short := by
  obtain ⟨op, ops, n, f, rfl, row, enough, -, all⟩ := decodeOp_eq_ok.mp h
  cases k with
  | zero => rfl
  | succ k =>
    have tooFew : (ops.take k).length < n := by
      rw [List.drop_eq_nil_iff] at all
      rw [List.length_cons] at hk
      rw [List.length_take]
      omega
    rw [List.take_succ_cons, decodeOp, row]
    exact if_pos tooFew

theorem decodeXYCB_take {q : XY} (h : decodeXYCB q bs = .ok i []) (hk : k < bs.length) :
    decodeXYCB q (bs.take k) = .short := by
  match bs with
  | [] | [_] => cases h
  | d :: op :: bs =>
    rw [decodeXYCB] at h
    split at h <;> cases h
    match k, hk with
    | 0, _ | 1, _ => rfl

theorem decodeXY_take {q : XY} (h : decodeXY q bs = .ok i []) (hk : k < bs.length) :
    decodeXY q (bs.take k) = .short := by
  match bs, k with
  | _, 0 => rfl
  | b :: bs, k + 1 =>
    have hk' : k < bs.length := Nat.lt_of_succ_lt_succ hk
    rw [decodeXY] at h
    rw [List.take_succ_cons, decodeXY]
    split_ifs at h ⊢
    · exact decodeOp_take h hk'
    · exact decodeXYCB_take h hk'
    · exact decodeOp_take h hk

/-- A proper beginning of the bytes of an instruction decides nothing. -/
theorem decode_take (h : decode bs = .ok i []) (hk : k < bs.length) : decode (bs.take k) = .short := by
  match bs, k with
  | _, 0 => rfl
  | b :: bs, k + 1 =>
    have hk' : k < bs.length := Nat.lt_of_succ_lt_succ hk
    rw [decode] at h
    rw [List.take_succ_cons, decode]
    split_ifs at h ⊢
    · exact decodeXY_take h hk'
    · exact decodeXY_take h hk'
    · exact decodeOp_take h hk'
    · exact decodeOp_take h hk'
    · exact decodeOp_take h hk

theorem length_le_of_decode (h : decode bs = .ok i []) : bs.length ≤ Machine.maxLength := by
  cases bs with
  | nil => cases h
  | cons b bs =>
    have short := decode_short_length (decode_take h (Nat.lt_succ_self bs.length))
    simpa using short

end

/-- Where the bytes of one instruction are fetched, the fetch gives that instruction. -/
theorem Machine.fetch_of_decode {s : Machine.State} {bs : List Byte} {i : Instr} (h : decode bs = .ok i [])
    (fetched : ∀ (k : Nat) (hk : k < bs.length), s.fetchByte k = .byte (bs[k])) : s.fetch = .instr i := by
  have nonempty : bs ≠ [] := by
    rintro rfl
    cases h
  exact Machine.fetchFrom_instr nonempty (length_le_of_decode h) (by simpa using fetched)
    (fun k _ hk => decode_take h hk) h

/-- Settles O4: the encoding decodes to the instruction, so the fetch gives it, and the step executes it. -/
theorem stepRunsDecodedInstruction : Obligations.StepRunsDecodedInstruction := by
  intro s i wf running noSS fetched
  have whole : decode (encode i) = .ok i [] := by simpa using decode_encode i wf []
  exact Machine.step_runs running noSS (Machine.fetch_of_decode whole fetched)

end Sys2Proof
end

section
/-! PROOFS. The 8-bit load group (40_load8.md R130 to R142). A byte operand that can be written is written as
`wr8_of_writable` says; what the statements add is the accumulator written after it (R137), and the flags that LDUD and
LDUP write where their user-mode access succeeds and where it fails (R141). -/

namespace Sys2Proof.Machine

section

variable {s t u : State} {len : Nat} {k : Kind} {m : MemOperand} {p : PhysAddr} {wp valid : Bool}

/-! ### The updates after the operand is written -/

theorem Wrote8.advance {dst : Loc8} {b : Byte} (h : Wrote8 len dst b s t) : Wrote8 len dst b s (t.advance len) :=
  h.congr (reg8_jump t _) (half_jump t _) rfl rfl

theorem f_setA (v : Byte) : (s.setA v).f = s.f := f_setAF s _

/-- Writing A keeps an operand that holds `b`, also where the operand is A and takes `b` again. -/
theorem Wrote8.setA {dst : Loc8} {b v : Byte} (h : Wrote8 len dst b s t) (hv : dst = .reg .a → v = b) :
    Wrote8 len dst b s (t.setA v) := by
  cases dst with
  | reg r =>
    obtain ⟨holds, mem⟩ := h
    refine ⟨?_, mem⟩
    by_cases hr : r = .a
    · subst hr
      exact (a_setAF t _).trans (hv rfl)
    · exact (reg8_setAF t _ hr).trans holds
  | rx q h' => exact ⟨(half_setAF t _ q h').trans h.1, h.2⟩
  | mem m => exact h

theorem flagsAre_putFlags_advance (hf : u.f = s.f) (g : Flags → Flags) :
    FlagsAre ((u.putFlags g).advance len) (g s.f).s (g s.f).z (g s.f).h (g s.f).pv (g s.f).n (g s.f).c := by
  simp [FlagsAre, hf]

theorem flagsAre_ldUserFailed_advance (hf : u.f = s.f) :
    FlagsAre ((ldUserFailed wp valid u).advance len) s.f.s wp s.f.h valid s.f.n true :=
  flagsAre_putFlags_advance hf _

theorem Unchanged.putFlags_advance {l : List Reg} (h : Unchanged l s u) (g : Flags → Flags) :
    Unchanged l s ((u.putFlags g).advance len) :=
  (h.trans (unchanged_putFlags u g)).trans (unchanged_advance _ len) |>.mono (by simp)

/-! ### LDUD and LDUP in system mode, by what their access answers -/

theorem ldUserLoad_of_memory (hs : s.mode = .system)
    (hp : s.translateAt { mode := .user, kind := k } .read (ea len m s) = .phys p) (hm : s.isMemory p = true) :
    ldUserLoad len k m s =
      .next (((s.setA (s.mem.get p)).putFlags fun f => { f with c := false }).advance len) := by
  rw [ldUserLoad, privCheck_system hs, hp]
  exact if_pos hm

theorem ldUserLoad_of_no_memory (hs : s.mode = .system)
    (hp : s.translateAt { mode := .user, kind := k } .read (ea len m s) = .phys p) (hm : s.isMemory p = false) :
    ldUserLoad len k m s = .refused .noMemoryThere := by
  rw [ldUserLoad, privCheck_system hs, hp]
  exact if_neg (Bool.eq_false_iff.mp hm)

theorem ldUserLoad_of_violation (hs : s.mode = .system)
    (hv : s.translateAt { mode := .user, kind := k } .read (ea len m s) = .violation wp valid) :
    ldUserLoad len k m s =
      .next ((ldUserFailed wp valid (s.setA (loByte s.anyWord)).drawn).advance len) := by
  rw [ldUserLoad, privCheck_system hs, hv]

theorem ldUserStore_of_memory (hs : s.mode = .system)
    (hp : s.translateAt { mode := .user, kind := k } .write (ea len m s) = .phys p) (hm : s.isMemory p = true) :
    ldUserStore len k m s =
      .next (((s.putByte p s.a).putFlags fun f => { f with c := false }).advance len) := by
  rw [ldUserStore, privCheck_system hs, hp]
  exact if_pos hm

theorem ldUserStore_of_no_memory (hs : s.mode = .system)
    (hp : s.translateAt { mode := .user, kind := k } .write (ea len m s) = .phys p) (hm : s.isMemory p = false) :
    ldUserStore len k m s = .refused .noMemoryThere := by
  rw [ldUserStore, privCheck_system hs, hp]
  exact if_neg (Bool.eq_false_iff.mp hm)

theorem ldUserStore_of_violation (hs : s.mode = .system)
    (hv : s.translateAt { mode := .user, kind := k } .write (ea len m s) = .violation wp valid) :
    ldUserStore len k m s = .next ((ldUserFailed wp valid s).advance len) := by
  rw [ldUserStore, privCheck_system hs, hv]

end

/-! ### The statements -/

/-- Settles O18: the destination is written with the value read, and the advance to the next instruction keeps it. -/
theorem loadByteResult : Obligations.LoadByteResult := by
  intro i len dst src hi s v hm hv hw
  obtain ⟨t, ht, wrote, frame, flags, pc, trace⟩ := wr8_of_writable v hw hm
  refine ⟨t.advance len, ?_, wrote.advance, flags, completed_advance len pc, ?_, trace⟩
  · rw [hi.exec_eq, ld8, hv, settle_ok, ht, settle_ok]
  · exact (frame.trans (unchanged_advance t len)).mono (by simp)

/-- Settles O19: A is written last; where the operand is A itself, both hold the same value. -/
theorem exchangeAccumulatorResult : Obligations.ExchangeAccumulatorResult := by
  intro i len src hi s v hm hv hw
  obtain ⟨t, ht, wrote, frame, flags, pc, trace⟩ := wr8_of_writable s.a hw hm
  have own : src = .reg .a → v = s.a := by
    rintro rfl
    exact (Except.ok.inj hv).symm
  refine ⟨(t.setA v).advance len, ?_, a_setAF t _, (wrote.setA own).advance, (f_setA v).trans flags,
    completed_advance len pc, ?_, trace⟩
  · rw [hi.exec_eq, exchangeA, hv, settle_ok, ht, settle_ok]
  · exact ((frame.trans (unchanged_setA t v)).trans (unchanged_advance _ len)).mono (by simp [or_comm])

/-- Settles O21, by what the user-mode access answers. -/
theorem userSpaceLoad : Obligations.UserSpaceLoad := by
  intro i len k m hi s hs
  rw [hi.exec_eq]
  refine ⟨fun p hp => ⟨fun present => ?_, ldUserLoad_of_no_memory hs hp⟩, fun wp valid hv => ?_⟩
  · exact ⟨_, ldUserLoad_of_memory hs hp present, by simp, flagsAre_putFlags_advance (f_setA _) _, .of_eq rfl rfl,
      completed_advance len rfl, (unchanged_setA s _).putFlags_advance _, rfl⟩
  · exact ⟨_, ldUserLoad_of_violation hs hv, flagsAre_ldUserFailed_advance ((f_drawn _).trans (f_setA _)),
      .of_eq rfl rfl, completed_advance len rfl, ((unchanged_setA s _).trans (unchanged_drawn _)).putFlags_advance _, rfl⟩

/-- Settles O22, by what the user-mode access answers. -/
theorem userSpaceStore : Obligations.UserSpaceStore := by
  intro i len k m hi s hs hm
  rw [hi.exec_eq]
  refine ⟨fun p hp => ⟨fun present => ?_, ldUserStore_of_no_memory hs hp⟩, fun wp valid hv => ?_⟩
  · exact ⟨_, ldUserStore_of_memory hs hp present, (storedByte_putByte hm p s.a).congr rfl rfl,
      flagsAre_putFlags_advance rfl _, completed_advance len rfl, (unchanged_putByte s p s.a).putFlags_advance _, rfl⟩
  · exact ⟨_, ldUserStore_of_violation hs hv, flagsAre_ldUserFailed_advance rfl, .of_eq rfl rfl,
      completed_advance len rfl, (Unchanged.refl [] s).putFlags_advance _, rfl⟩

/-- Settles O20: HL takes its own two bytes the other way round. -/
theorem exchangeHAndL : Obligations.ExchangeHAndL := by
  intro s
  refine ⟨_, rfl, ?_, ?_, rfl, .of_eq rfl rfl, completed_advance 2 rfl, ?_, rfl⟩
  · simp [State.reg8]
  · simp [State.reg8]
  · exact (unchanged_setReg16 s .hl _).trans (unchanged_advance _ 2)

end Sys2Proof.Machine
end

section
/-! PROOFS. The 16-bit load and exchange group (41_load16_exchange.md R150 to R157). Every form but the bank switches ends
in a 16-bit register written or a word stored, and then the advance; the bank switches change a selector only, so what they
do is what each register's name stands for before and after (10_state.md R32). -/

namespace Sys2Proof.Machine

section

variable {s t : State} {i : Instr} {len : Nat} {w : Reg16}

/-! ### The last update and the advance after it -/

/-- Which registers `SP` stands for depends on the mode, and no 16-bit register holds the mode. -/
theorem regs_setReg16 (s : State) (w w' : Reg16) (v : Word) : w'.regs (s.setReg16 w v) = w'.regs s := by
  cases w' <;> simp [Reg16.regs]

theorem Unchanged.advance {l : List Reg} (h : Unchanged l s t) : Unchanged l s (t.advance len) :=
  (h.trans (unchanged_advance t len)).mono (by simp)

theorem Wrote16.advance {dst : Loc16} {v : Word} (h : Wrote16 len dst v s t) : Wrote16 len dst v s (t.advance len) := by
  cases dst with
  | reg w =>
    obtain ⟨holds, mem⟩ := h
    exact ⟨(reg16_jump t _ w).trans holds, mem⟩
  | mem m => exact fun p p' hp hp' => (h p p' hp hp').congr rfl rfl

/-! ### The exchanges and LDA -/

theorem ExchangeHLForm.exec_eq (h : ExchangeHLForm i len w) : exec i s = exchangeHL len w s := by cases h <;> rfl

theorem ExchangeHLForm.ne_hl (h : ExchangeHLForm i len w) : w ≠ .hl := by
  cases h with
  | exDeHl => decide
  | exXyHl xy => cases xy <;> decide

theorem LoadAddressForm.exec_eq {m : MemOperand} (h : LoadAddressForm i len w m) : exec i s = lda len w m s := by
  cases h <;> rfl

/-- EX (SP),dst where all four accesses succeed: the bytes read are those before either write. -/
theorem exchangeTop_of_reach {p p' q q' : PhysAddr}
    (hp : s.reach s.curData .read s.sp = .ok p) (hp' : s.reach s.curData .read (s.sp + 1) = .ok p')
    (hq : s.reach s.curData .write s.sp = .ok q) (hq' : s.reach s.curData .write (s.sp + 1) = .ok q') :
    exchangeTop len w s =
      .next ((((s.putByte q (loByte (s.reg16 w))).putByte q' (hiByte (s.reg16 w))).setReg16 w
        (joinBytes (s.mem.get p') (s.mem.get p))).advance len) := by
  have high : (s.putByte q (loByte (s.reg16 w))).reach s.curData .write (s.sp + 1) = .ok q' := hq'
  rw [exchangeTop, readByte_of_reach hp, settle_ok, readByte_of_reach hp', settle_ok, writeByte_of_reach hq, settle_ok,
    writeByte_of_reach high, settle_ok]

/-! ### A bank selector complemented -/

/-- The state with the other accumulator and flags in use (R152). -/
def State.switchAF (s : State) : State := { s with afSel := !s.afSel }

/-- The state with the other byte/word registers in use (R153). -/
def State.switchGP (s : State) : State := { s with rfSel := !s.rfSel }

theorem exec_exAfAf_eq_switchAF (s : State) : exec .exAfAf s = .next (s.switchAF.advance 1) := rfl

theorem exec_exx_eq_switchGP (s : State) : exec .exx s = .next (s.switchGP.advance 1) := rfl

@[simp] theorem af_switchAF (s : State) : s.switchAF.af = s.afAlt := by
  cases h : s.afSel <;> simp [State.switchAF, State.af, State.afAlt, h]

@[simp] theorem afAlt_switchAF (s : State) : s.switchAF.afAlt = s.af := by
  cases h : s.afSel <;> simp [State.switchAF, State.af, State.afAlt, h]

@[simp] theorem gp_switchGP (s : State) : s.switchGP.gp = s.gpAlt := by
  cases h : s.rfSel <;> simp [State.switchGP, State.gp, State.gpAlt, h]

@[simp] theorem gpAlt_switchGP (s : State) : s.switchGP.gpAlt = s.gp := by
  cases h : s.rfSel <;> simp [State.switchGP, State.gp, State.gpAlt, h]

@[simp] theorem a_switchAF (s : State) : s.switchAF.a = s.afAlt.a := congrArg AF.a (af_switchAF s)

@[simp] theorem f_switchAF (s : State) : s.switchAF.f = s.afAlt.f := congrArg AF.f (af_switchAF s)

@[simp] theorem bc_switchGP (s : State) : s.switchGP.bc = s.gpAlt.bc := congrArg GP.bc (gp_switchGP s)

@[simp] theorem de_switchGP (s : State) : s.switchGP.de = s.gpAlt.de := congrArg GP.de (gp_switchGP s)

@[simp] theorem hl_switchGP (s : State) : s.switchGP.hl = s.gpAlt.hl := congrArg GP.hl (gp_switchGP s)

/-- The accumulators of both banks and the selector are the only registers that the switch of A and F changes. -/
theorem look_switchAF {g : Reg} (h : g ∉ [Reg.r8 .a, .alt .a, .afSel]) : s.switchAF.look g = s.look g := by
  cases g with
  | r8 r =>
    cases r with
    | a => simp at h
    | _ => rfl
  | alt r =>
    cases r with
    | a => simp at h
    | _ => rfl
  | afSel => simp at h
  | _ => rfl

/-- Each byte of BC, DE and HL changes its bank. -/
theorem reg8_switchGP {r : R8} (h : r ≠ .a) : s.switchGP.reg8 r = s.altReg8 r := by
  cases r with
  | a => exact absurd rfl h
  | _ => simp [State.reg8, State.altReg8]

theorem altReg8_switchGP {r : R8} (h : r ≠ .a) : s.switchGP.altReg8 r = s.reg8 r := by
  cases r with
  | a => exact absurd rfl h
  | _ => simp [State.altReg8, State.reg8]

/-- The byte/word registers of both banks and the selector are the only registers that EXX changes. -/
theorem unchanged_switchGP (s : State) :
    Unchanged [.r8 .b, .r8 .c, .r8 .d, .r8 .e, .r8 .h, .r8 .l, .alt .b, .alt .c, .alt .d, .alt .e, .alt .h, .alt .l,
      .rfSel] s s.switchGP := by
  refine ⟨fun g hg => ?_, rfl, rfl, rfl, rfl⟩
  cases g with
  | r8 r =>
    cases r with
    | a => rfl
    | _ => simp at hg
  | alt r =>
    cases r with
    | a => rfl
    | _ => simp at hg
  | rfSel => simp at hg
  | _ => rfl

end

/-! ### The statements -/

/-- Settles O25: what is read is memory before either write, and the register is written last. -/
theorem exchangeStackTop : Obligations.ExchangeStackTop := by
  intro i len w hi s p p' q q' hm hp hp' hq hq'
  have stored := storedWord_putByte hm q q' (loByte (s.reg16 w)) (hiByte (s.reg16 w))
  have frame := (unchanged_putByte s q (loByte (s.reg16 w))).trans (unchanged_putByte _ q' (hiByte (s.reg16 w)))
  refine ⟨_, hi.exec_eq.trans (exchangeTop_of_reach hp hp' hq hq'), ?_, stored.congr (by simp) (by simp),
    by simp [SameFlags], completed_advance len (by simp), ?_, by simp [SameTrace]⟩
  · simp [joinBytes_toNat]
  · exact (frame.trans (unchanged_setReg16 _ w _)).advance

/-- Settles O23: HL is written first, with the value of the other register, which is not HL. -/
theorem exchangeWithHL : Obligations.ExchangeWithHL := by
  intro i len w hi s
  have hl : ((s.setReg16 .hl (s.reg16 w)).setReg16 w s.hl).reg16 .hl = s.reg16 w := by
    rw [reg16_setReg16_ne _ hi.ne_hl.symm, reg16_setReg16_same]
  have frame := (unchanged_setReg16 s .hl (s.reg16 w)).trans (unchanged_setReg16 _ w s.hl)
  rw [regs_setReg16] at frame
  exact ⟨_, hi.exec_eq, hl, by simp, by simp [SameFlags], .of_eq (by simp) (by simp), completed_advance len (by simp),
    frame.advance, by simp [SameTrace]⟩

/-- Settles O26: the effective address is computed and written; nothing in the operation asks the translation. -/
theorem loadAddressResult : Obligations.LoadAddressResult := by
  intro i len w m hi s
  exact ⟨_, hi.exec_eq, by simp, by simp [SameFlags], .of_eq (by simp) (by simp), completed_advance len (by simp),
    (unchanged_setReg16 s w _).advance, by simp [SameTrace]⟩

/-- Settles O27: the word operand is written with the immediate, and the advance keeps it. -/
theorem loadImmediateWord : Obligations.LoadImmediateWord := by
  intro i len dst nn hi s hm hw
  obtain ⟨t, ht, wrote, frame, flags, pc, trace⟩ := wr16_of_writable nn hw hm
  refine ⟨t.advance len, ?_, wrote.advance, flags, completed_advance len pc, frame.advance, trace⟩
  rw [hi.exec_eq, ldw, ht, settle_ok]

/-- Settles O24: one selector changes, and the names of the two banks change places with it. -/
theorem bankSwitches : Obligations.BankSwitches := by
  refine ⟨fun s => ?_, fun s => ?_⟩
  · refine ⟨_, exec_exAfAf_eq_switchAF s, a_switchAF s, f_switchAF s, by simp, by simp, rfl, fun g hg => ?_, rfl, rfl,
      rfl, .of_eq rfl rfl, completed_advance 1 rfl, rfl⟩
    rw [look_advance, look_switchAF hg]
  · exact ⟨_, exec_exx_eq_switchGP s, fun r hr => ⟨(reg8_jump _ _ r).trans (reg8_switchGP hr), altReg8_switchGP hr⟩, rfl,
      rfl, .of_eq rfl rfl, completed_advance 1 rfl, rfl, (unchanged_switchGP s).advance⟩

end Sys2Proof.Machine
end

section
/-! PROOFS. The block transfer and search group (42_block.md R170 to R179), one iteration at a time (R178). The end of an
iteration touches PC and `ei_shadow` alone, so the registers, the flags and memory are those after the transfer or the
comparison, and PC says whether the instruction goes on. -/

namespace Sys2Proof.Machine

section

variable {s t : State} {len : Nat} {again : Bool} {d : Dir} {rep : Bool}

/-! ### The end of an iteration -/

@[simp] theorem bc_iterationEnd (t : State) : (iterationEnd len again t).bc = t.bc := by cases again <;> rfl

@[simp] theorem de_iterationEnd (t : State) : (iterationEnd len again t).de = t.de := by cases again <;> rfl

@[simp] theorem hl_iterationEnd (t : State) : (iterationEnd len again t).hl = t.hl := by cases again <;> rfl

@[simp] theorem f_iterationEnd (t : State) : (iterationEnd len again t).f = t.f := by cases again <;> rfl

@[simp] theorem mem_iterationEnd (t : State) : (iterationEnd len again t).mem = t.mem := by cases again <;> rfl

@[simp] theorem written_iterationEnd (t : State) : (iterationEnd len again t).written = t.written := by
  cases again <;> rfl

@[simp] theorem ioTrace_iterationEnd (t : State) : (iterationEnd len again t).ioTrace = t.ioTrace := by
  cases again <;> rfl

theorem FlagsAre.iterationEnd {sign zero half overflow subtract carry : Bool}
    (h : FlagsAre t sign zero half overflow subtract carry) :
    FlagsAre (iterationEnd len again t) sign zero half overflow subtract carry := by
  rwa [FlagsAre, f_iterationEnd]

theorem Unchanged.iterationEnd {l : List Reg} (h : Unchanged l s t) : Unchanged l s (iterationEnd len again t) := by
  cases again with
  | true => exact h
  | false => exact h.advance

/-- PC stays at the instruction while a repeating form has more to do, and otherwise the instruction completes (R178). -/
theorem iterationEnd_repeats_or_completes (len : Nat) (rep : Bool) (more : Prop) [Decidable more] (hpc : t.pc = s.pc) :
    (rep = true ∧ more ∧ (iterationEnd len (rep && decide more) t).pc = s.pc)
      ∨ ((rep = false ∨ ¬more) ∧ Completed len s (iterationEnd len (rep && decide more) t)) := by
  cases rep with
  | false => exact .inr ⟨.inl rfl, completed_advance len hpc⟩
  | true =>
    by_cases hm : more
    · rw [decide_eq_true hm]
      exact .inl ⟨rfl, hm, hpc⟩
    · rw [decide_eq_false hm]
      exact .inr ⟨.inr hm, completed_advance len hpc⟩

/-- The counter has more to count exactly where it was not 1: 0 stands for 65,536. -/
theorem word_sub_one_ne_zero {w : Word} : w - 1 ≠ 0 ↔ w ≠ 1 := by bv_omega

/-! ### The state after a transfer -/

@[simp] theorem de_afterTransfer (t : State) : (afterTransfer d t).de = d.move t.de 1 := by simp [afterTransfer]

@[simp] theorem hl_afterTransfer (t : State) : (afterTransfer d t).hl = d.move t.hl 1 := by simp [afterTransfer]

@[simp] theorem bc_afterTransfer (t : State) : (afterTransfer d t).bc = t.bc - 1 := by simp [afterTransfer]

@[simp] theorem pc_afterTransfer (t : State) : (afterTransfer d t).pc = t.pc := rfl

@[simp] theorem mem_afterTransfer (t : State) : (afterTransfer d t).mem = t.mem := rfl

@[simp] theorem written_afterTransfer (t : State) : (afterTransfer d t).written = t.written := rfl

@[simp] theorem ioTrace_afterTransfer (t : State) : (afterTransfer d t).ioTrace = t.ioTrace := rfl

theorem flagsAre_afterTransfer (t : State) :
    FlagsAre (afterTransfer d t) t.f.s t.f.z false (decide (t.bc ≠ 1)) false t.f.c := by
  rw [FlagsAre, afterTransfer, f_putFlags]
  exact ⟨rfl, rfl, rfl, decide_eq_decide.mpr word_sub_one_ne_zero, rfl, rfl⟩

theorem unchanged_afterTransfer (t : State) :
    Unchanged [.r8 .b, .r8 .c, .r8 .d, .r8 .e, .r8 .h, .r8 .l] t (afterTransfer d t) :=
  (((unchanged_setReg16 t .de _).trans (unchanged_setReg16 _ .hl _)).trans (unchanged_setReg16 _ .bc _)).trans
    (unchanged_putFlags _ _) |>.mono (by simp [Reg16.regs])

/-! ### The comparison as a subtraction without a borrow -/

theorem subtracter_res_eq_sub {k : Nat} (low : Nat) (a b : BitVec (k + 1)) :
    (subtracter k low a b false).res = a - b := by
  simp [subtracter, Int.sub_eq_add_neg, BitVec.ofInt_add, BitVec.ofInt_neg, BitVec.sub_eq_add_neg]

theorem sub8_s_eq (a v : Byte) : (sub8 a v false).s = (a - v).getLsbD 7 :=
  congrArg (BitVec.getLsbD · 7) (subtracter_res_eq_sub 4 a v)

theorem sub8_z_eq (a v : Byte) : (sub8 a v false).z = decide (a = v) := by
  have z_eq : (sub8 a v false).z = decide (a - v = 0) := congrArg (decide <| · = 0) (subtracter_res_eq_sub 4 a v)
  rw [z_eq, decide_eq_decide]
  exact sub_eq_zero

theorem sub8_h_eq (a v : Byte) : (sub8 a v false).h = decide (a.toNat % 16 < v.toNat % 16) :=
  Bool.eq_iff_iff.mpr ((subtracter_h_iff 4 a v false).trans decide_eq_true_iff.symm)

/-! ### The state after a comparison -/

variable {v : Byte}

@[simp] theorem hl_afterCompare (s : State) : (afterCompare d v s).hl = d.move s.hl 1 := by simp [afterCompare]

@[simp] theorem bc_afterCompare (s : State) : (afterCompare d v s).bc = s.bc - 1 := by simp [afterCompare]

@[simp] theorem pc_afterCompare (s : State) : (afterCompare d v s).pc = s.pc := rfl

@[simp] theorem mem_afterCompare (s : State) : (afterCompare d v s).mem = s.mem := rfl

@[simp] theorem written_afterCompare (s : State) : (afterCompare d v s).written = s.written := rfl

@[simp] theorem ioTrace_afterCompare (s : State) : (afterCompare d v s).ioTrace = s.ioTrace := rfl

theorem flagsAre_afterCompare (s : State) :
    FlagsAre (afterCompare d v s) ((s.a - v).getLsbD 7) (decide (s.a = v)) (decide (s.a.toNat % 16 < v.toNat % 16))
      (decide (s.bc ≠ 1)) true s.f.c := by
  rw [FlagsAre, afterCompare, f_putFlags]
  exact ⟨sub8_s_eq s.a v, sub8_z_eq s.a v, sub8_h_eq s.a v, decide_eq_decide.mpr word_sub_one_ne_zero, rfl, rfl⟩

theorem unchanged_afterCompare (s : State) :
    Unchanged [.r8 .b, .r8 .c, .r8 .h, .r8 .l] s (afterCompare d v s) :=
  ((unchanged_setReg16 s .hl _).trans (unchanged_setReg16 _ .bc _)).trans (unchanged_putFlags _ _) |>.mono
    (by simp [Reg16.regs])

/-! ### One iteration where its accesses succeed -/

variable {i : Instr} {p q : PhysAddr}

theorem BlockLoadForm.exec_of_reach (h : BlockLoadForm i d rep) (hr : s.reach s.curData .read s.hl = .ok p)
    (hw : s.reach s.curData .write s.de = .ok q) :
    exec i s =
      .next (iterationEnd 2 (rep && decide (s.bc ≠ 1)) (afterTransfer d (s.putByte q (s.mem.get p)))) := by
  rw [h.exec_eq, blockLoad_of_reach hr hw, decide_eq_decide.mpr word_sub_one_ne_zero]

theorem BlockCompareForm.exec_of_reach (h : BlockCompareForm i d rep) (hr : s.reach s.curData .read s.hl = .ok p) :
    exec i s =
      .next (iterationEnd 2 (rep && decide (s.bc ≠ 1 ∧ s.a ≠ s.mem.get p)) (afterCompare d (s.mem.get p) s)) := by
  rw [h.exec_eq, blockCompare, readByte_of_reach hr, settle_ok, sub8_z_eq, decide_eq_decide.mpr word_sub_one_ne_zero,
    ← decide_not, Bool.and_assoc, ← Bool.decide_and]

end

/-! ### The statements -/

/-- Settles O28: the byte is stored first, and what follows the store leaves memory alone. -/
theorem blockTransferIteration : Obligations.BlockTransferIteration := by
  intro i d rep hi s p q hm hr hw
  have stored := storedByte_putByte hm q (s.mem.get p)
  have frame := (unchanged_putByte s q (s.mem.get p)).trans (unchanged_afterTransfer (d := d) _)
  refine ⟨_, hi.exec_of_reach hr hw, stored.congr (by simp) (by simp), ?up, ?down, by simp,
    (flagsAre_afterTransfer _).iterationEnd, ?ends, frame.iterationEnd, by simp [SameTrace]⟩
  case up => rintro rfl; simp [Dir.move]
  case down => rintro rfl; simp [Dir.move]
  case ends =>
    simpa only [ne_eq, not_not] using
      iterationEnd_repeats_or_completes (s := s) 2 rep (s.bc ≠ 1) (pc_afterTransfer (d := d) (s.putByte q (s.mem.get p)))

/-- Settles O29: the repetition stops where BC was 1 or where the comparison sets Z, which is where the byte is found. -/
theorem blockSearchIteration : Obligations.BlockSearchIteration := by
  intro i d rep hi s p hr
  refine ⟨_, hi.exec_of_reach hr, ?up, ?down, by simp, (flagsAre_afterCompare s).iterationEnd, ?ends,
    .of_eq (by simp) (by simp), (unchanged_afterCompare s).iterationEnd, by simp [SameTrace]⟩
  case up => rintro rfl; simp [Dir.move]
  case down => rintro rfl; simp [Dir.move]
  case ends =>
    simpa only [ne_eq, not_and_or, not_not, and_assoc] using
      iterationEnd_repeats_or_completes 2 rep (s.bc ≠ 1 ∧ s.a ≠ s.mem.get p) (pc_afterCompare (d := d) s)

end Sys2Proof.Machine
end

section
/-! PROOFS. The 8-bit arithmetic and logic group (43_arith8.md R190 to R201), with CCF (46_control.md R262) and EXTS HL
(44_arith16.md R229). Every form but EXTS writes its result, then the flags, and advances, so the frame is that of
`Unchanged.putFlags_advance`; what each adds is the value of its flags as comparisons of numbers. -/

namespace Sys2Proof.Machine

section

variable {s t u : State} {i : Instr} {len : Nat} {v : Byte}

theorem eq_decide_of_iff {b : Bool} {p : Prop} [Decidable p] (h : b = true ↔ p) : b = decide p :=
  Bool.eq_iff_iff.mpr (h.trans decide_eq_true_iff.symm)

/-! ### The accumulator written, then the flags -/

theorem a_putFlags_advance (g : Flags → Flags) : ((u.putFlags g).advance len).a = u.a := a_putFlags u g

theorem a_setA (v : Byte) : (s.setA v).a = v := a_setAF s _

/-- What writing flags and advancing leaves of an instruction: memory and the trace as they were, PC past the bytes. -/
theorem frame_putFlags_advance {l : List Reg} (g : Flags → Flags) (frame : Unchanged l s u) (mem : SameMemory s u)
    (pc : u.pc = s.pc) (trace : SameTrace s u) :
    SameMemory s ((u.putFlags g).advance len) ∧ Completed len s ((u.putFlags g).advance len)
      ∧ Unchanged l s ((u.putFlags g).advance len) ∧ SameTrace s ((u.putFlags g).advance len) :=
  ⟨mem, completed_advance len pc, frame.putFlags_advance g, trace⟩

theorem frame_setA_putFlags_advance (s : State) (len : Nat) (v : Byte) (g : Flags → Flags) :
    SameMemory s (((s.setA v).putFlags g).advance len) ∧ Completed len s (((s.setA v).putFlags g).advance len)
      ∧ Unchanged [.r8 .a] s (((s.setA v).putFlags g).advance len)
      ∧ SameTrace s (((s.setA v).putFlags g).advance len) :=
  frame_putFlags_advance g (unchanged_setA s v) (.of_eq rfl rfl) rfl rfl

/-! ### Sums -/

theorem flagsAre_add8 (len : Nat) (u : State) (a v : Byte) (cin : Bool) :
    FlagsAre ((u.putFlags (add8 a v cin).all).advance len) ((add8 a v cin).res.getLsbD 7)
      (decide ((add8 a v cin).res = 0)) (decide (16 ≤ a.toNat % 16 + v.toNat % 16 + cin.toNat))
      (decide (a.toInt + v.toInt + cin.toNat < -128 ∨ 127 < a.toInt + v.toInt + cin.toNat)) false
      (decide (256 ≤ a.toNat + v.toNat + cin.toNat)) := by
  obtain ⟨sums, -, -, -⟩ := addersAndSubtractersAreExact
  obtain ⟨-, -, -, half, overflow, -, carry⟩ := sums a v cin
  have written := flagsAre_putFlags_advance (len := len) (u := u) rfl (add8 a v cin).all
  rwa [← eq_decide_of_iff half, ← eq_decide_of_iff overflow, ← eq_decide_of_iff carry]

theorem Alu8Form.exec_adc_or_add {op : Alu8} {src : Src8} {cin : Bool} (h : Alu8Form op i len src)
    (hop : op = .adc ∨ op = .add) (hcin : cin = (decide (op = .adc) && s.f.c)) (hv : rd8 len src s = .ok v) :
    exec i s = .next (((s.setA (add8 s.a v cin).res).putFlags (add8 s.a v cin).all).advance len) := by
  subst hcin
  rw [h.exec_eq]
  rcases hop with rfl | rfl <;> exact congrArg (settle · s _) hv

/-! ### Parity -/

theorem decide_countP_cons_even {α : Type} (p : α → Bool) (x : α) (l : List α) :
    decide ((x :: l).countP p % 2 = 0) = (p x ^^ decide (l.countP p % 2 = 0)) := by
  rw [List.countP_cons]
  rcases Nat.mod_two_eq_zero_or_one (l.countP p) with even | odd
  · cases p x <;> simp [even, Nat.add_mod]
  · cases p x <;> simp [odd, Nat.add_mod]

/-- `parity_even` of R13 says whether the number of 1 bits is even. -/
theorem parityEven_eq_countP (b : Byte) :
    parityEven b = decide ((List.range 8).countP (fun k => b.getLsbD k) % 2 = 0) := by
  have bits : List.range 8 = [0, 1, 2, 3, 4, 5, 6, 7] := rfl
  simp only [bits, decide_countP_cons_even, List.countP_nil, parityEven]
  simp

/-! ### Differences -/

theorem sub8_v_eq (a v : Byte) :
    (sub8 a v false).v = decide (a.toInt - v.toInt < -128 ∨ 127 < a.toInt - v.toInt) := by
  obtain ⟨-, -, differences, -⟩ := addersAndSubtractersAreExact
  obtain ⟨-, -, -, -, overflow, -⟩ := differences a v false
  exact eq_decide_of_iff (by simpa using overflow)

theorem sub8_c_eq (a v : Byte) : (sub8 a v false).c = decide (a.toNat < v.toNat) :=
  eq_decide_of_iff (subtracter_c_iff 4 a v false)

theorem flagsAre_sub8 (len : Nat) (u : State) (a v : Byte) :
    FlagsAre ((u.putFlags (sub8 a v false).all).advance len) ((a - v).getLsbD 7) (decide (a = v))
      (decide (a.toNat % 16 < v.toNat % 16)) (decide (a.toInt - v.toInt < -128 ∨ 127 < a.toInt - v.toInt)) true
      (decide (a.toNat < v.toNat)) := by
  have written := flagsAre_putFlags_advance (len := len) (u := u) rfl (sub8 a v false).all
  rwa [← sub8_s_eq, ← sub8_z_eq, ← sub8_h_eq, ← sub8_v_eq, ← sub8_c_eq]

/-! ### Counting by one -/

theorem byte_toInt_bounds (v : Byte) : -128 ≤ v.toInt ∧ v.toInt ≤ 127 := by
  have := toInt_bounds v
  omega

theorem add8_one_res (v : Byte) : (add8 v 1 false).res = v + 1 := BitVec.eq_of_toNat_eq (adder_res_toNat 4 v 1 false)

theorem add8_one_h (v : Byte) : (add8 v 1 false).h = decide (v.toNat % 16 = 15) := by
  refine eq_decide_of_iff ((adder_h_iff 4 v 1 false).trans ?_)
  change 16 ≤ v.toNat % 16 + 1 + 0 ↔ v.toNat % 16 = 15
  omega

theorem add8_one_v (v : Byte) : (add8 v 1 false).v = decide (v = 0x7F) := by
  have bounds := byte_toInt_bounds v
  have top : v = 0x7F ↔ v.toInt = 127 := BitVec.toInt_inj.symm
  refine eq_decide_of_iff ((adder_v_iff 4 v 1 false).trans ?_)
  rw [top]
  change v.toInt + 1 + 0 < -128 ∨ 128 ≤ v.toInt + 1 + 0 ↔ v.toInt = 127
  omega

theorem sub8_one_h (v : Byte) : (sub8 v 1 false).h = decide (v.toNat % 16 = 0) :=
  (sub8_h_eq v 1).trans (decide_eq_decide.mpr Nat.lt_one_iff)

theorem sub8_one_v (v : Byte) : (sub8 v 1 false).v = decide (v = 0x80) := by
  have bounds := byte_toInt_bounds v
  have bottom : v = 0x80 ↔ v.toInt = -128 := BitVec.toInt_inj.symm
  refine (sub8_v_eq v 1).trans (decide_eq_decide.mpr ?_)
  rw [bottom]
  change v.toInt - 1 < -128 ∨ 127 < v.toInt - 1 ↔ v.toInt = -128
  omega

/-- The end that DEC and INC share: the operand is written with a helper's result, and then the helper's flags but C. -/
theorem count_of_writable {dst : Loc8} (x : Alu 8) (hm : s.mem.wf = true) (hw : Writable8 len dst s) :
    ∃ t : State, (settle (wr8 len dst x.res s) s fun u => .next ((u.putFlags x.allButC).advance len)) = .next t
      ∧ Wrote8 len dst x.res s t ∧ FlagsAre t x.s x.z x.h x.v x.n s.f.c ∧ Completed len s t
      ∧ Unchanged dst.regs s t ∧ SameTrace s t := by
  obtain ⟨u, hu, wrote, frame, flags, pc, trace⟩ := wr8_of_writable x.res hw hm
  have still : Wrote8 len dst x.res s (u.putFlags x.allButC) :=
    wrote.congr (reg8_putFlags u _) (half_putFlags u _) rfl rfl
  rw [hu, settle_ok]
  exact ⟨_, rfl, still.advance, flagsAre_putFlags_advance flags _, completed_advance len pc, frame.putFlags_advance _,
    trace⟩

/-! ### Decimal adjustment -/

/-- Two rows of the table of DAA differ in a flag, or in the range of a digit. -/
def DaaRow.excludes (row row' : DaaRow) : Bool :=
  row.n != row'.n || row.c != row'.c || row.h != row'.h
    || decide (row.upperMax < row'.upperMin) || decide (row'.upperMax < row.upperMin)
    || decide (row.lowerMax < row'.lowerMin) || decide (row'.lowerMax < row.lowerMin)

theorem DaaRow.hits_iff {row : DaaRow} {f : Flags} {a : Byte} : row.hits f a = true ↔
    (row.n = f.n ∧ row.c = f.c ∧ row.h = f.h)
      ∧ (row.upperMin ≤ a.toNat / 16 ∧ a.toNat / 16 ≤ row.upperMax)
      ∧ row.lowerMin ≤ a.toNat % 16 ∧ a.toNat % 16 ≤ row.lowerMax := by
  simp [DaaRow.hits, and_assoc]

theorem DaaRow.excludes_hits {row row' : DaaRow} {f : Flags} {a : Byte} (h : row.hits f a = true)
    (h' : row'.hits f a = true) : row.excludes row' = false := by
  obtain ⟨⟨n, c, h⟩, ⟨_, _⟩, _, _⟩ := hits_iff.mp h
  obtain ⟨⟨n', c', h'⟩, ⟨_, _⟩, _, _⟩ := hits_iff.mp h'
  simp only [excludes, n, c, h, n', c', h', bne_self_eq_false, Bool.false_or, Bool.or_eq_false_iff,
    decide_eq_false_iff_not]
  omega

theorem daaTable_excludes : ∀ row ∈ daaTable, ∀ row' ∈ daaTable, row = row' ∨ row.excludes row' = true := by decide

/-- The order of the table does not matter: no state hits two of its rows. -/
theorem daaRow_eq_some_iff {f : Flags} {a : Byte} {row : DaaRow} :
    daaRow f a = some row ↔ row ∈ daaTable ∧ row.hits f a = true := by
  constructor
  · intro found
    have hit := List.find?_some found
    exact ⟨List.mem_of_find?_eq_some found, hit⟩
  · rintro ⟨mem, hit⟩
    cases found : daaRow f a with
    | none => exact absurd hit (List.find?_eq_none.mp found row mem)
    | some row' =>
      have hit' := List.find?_some found
      rcases daaTable_excludes row' (List.mem_of_find?_eq_some found) row mem with same | other
      · rw [same]
      · rw [DaaRow.excludes_hits hit' hit] at other
        cases other

theorem daaRow_eq_none_iff {f : Flags} {a : Byte} :
    daaRow f a = none ↔ ∀ row ∈ daaTable, row.hits f a = false := by
  simp only [daaRow, List.find?_eq_none, Bool.not_eq_true]

/-! ### Decimal adjustment after a sum of BCD bytes -/

/-- The two digits of a number below 100, four bits each (R196). -/
def bcd (n : Nat) : Byte := BitVec.ofNat 8 (n / 10 * 16 + n % 10)

theorem bcd_toNat {n : Nat} (h : n < 100) : (bcd n).toNat = n / 10 * 16 + n % 10 := by
  rw [bcd, BitVec.toNat_ofNat]
  omega

/-- Where A, H and C are what the sum of two BCD bytes leaves, with `low` the sum of the units and the carry and `high`
that of the tens, a row corrects A. The nine rows of additions are three by three: the low digit stands as it is, is a
letter, or gave a half carry; the tens with the carry of the units are below 10, or pass 9 without or with a carry out
of A. -/
theorem bcdSum_row {f : Flags} {a : Byte} {high low : Nat} (hhigh : high < 19) (hlow : low < 20)
    (ha : a.toNat = (16 * high + low) % 256) (hn : f.n = false) (hh : f.h = decide (16 ≤ low))
    (hc : f.c = decide (256 ≤ 16 * high + low)) :
    ∃ row ∈ daaTable, row.hits f a = true
      ∧ (a + row.added).toNat = (high + low / 10) % 10 * 16 + low % 10
      ∧ row.cAfter = decide (10 ≤ high + low / 10) := by
  simp only [DaaRow.hits_iff, hn, hh, hc, BitVec.toNat_add, ha]
  have lowClass : low < 10 ∨ (10 ≤ low ∧ low < 16) ∨ 16 ≤ low := by omega
  have highClass : high + low / 10 < 10 ∨ (10 ≤ high + low / 10 ∧ 16 * high + low < 256)
    ∨ 256 ≤ 16 * high + low := by omega
  rcases highClass with inRange | adjust | carry
  · rcases lowClass with digit | letter | half
    · exact ⟨daaTable[0], by simp [daaTable]; omega⟩
    · exact ⟨daaTable[1], by simp [daaTable]; omega⟩
    · exact ⟨daaTable[2], by simp [daaTable]; omega⟩
  · rcases lowClass with digit | letter | half
    · exact ⟨daaTable[3], by simp [daaTable]; omega⟩
    · exact ⟨daaTable[4], by simp [daaTable]; omega⟩
    · exact ⟨daaTable[5], by simp [daaTable]; omega⟩
  · rcases lowClass with digit | letter | half
    · exact ⟨daaTable[6], by simp [daaTable]; omega⟩
    · exact ⟨daaTable[7], by simp [daaTable]; omega⟩
    · exact ⟨daaTable[8], by simp [daaTable]; omega⟩

theorem exec_daa_of_hits {row : DaaRow} (mem : row ∈ daaTable) (hit : row.hits s.f s.a = true) :
    exec .daa s =
      .next (((s.setA (s.a + row.added)).putFlags fun f =>
        { f with
          s := (s.a + row.added).getLsbD 7, z := decide (s.a + row.added = 0),
          pv := parityEven (s.a + row.added), c := row.cAfter, h := row.hAfter }).advance 1) := by
  rw [exec_daa, decimalAdjust, daaRow_eq_some_iff.mpr ⟨mem, hit⟩]

/-! ### Divisions -/

@[simp] theorem f_openPC (s : State) : s.openPC.f = s.f := rfl

theorem look_openPC (s : State) (g : Reg) : s.openPC.look g = s.look g := by cases g <;> rfl

theorem unchanged_openPC (s : State) : Unchanged [] s s.openPC := ⟨fun g _ => look_openPC s g, rfl, rfl, rfl, rfl⟩

/-- CASE 2 and CASE 3 of a division: the flags are written and nothing else is (60_exceptions.md R334). -/
theorem divisionTrap_faults (c : DivisionCause) (s : State) :
    ∃ f : State, divisionTrap c s = .fault (.divisionException c f)
      ∧ FlagsAre f false (decide (c = .zeroDivisor)) s.f.h true s.f.n s.f.c
      ∧ SameMemory s f ∧ Unchanged [] s f ∧ SameTrace s f :=
  ⟨_, rfl, by simp [FlagsAre], .of_eq rfl rfl, (unchanged_putFlags s _).trans (unchanged_openPC _), rfl⟩

/-- The state after CASE 1 of a byte division, which leaves `q` in A and `r` in L (R198, R199). -/
def afterDivision (len : Nat) (q r : Byte) (neg zero : Bool) (s : State) : State :=
  (((s.setA q).setReg8 .l r).putFlags (quotientFlags neg zero)).advance len

section
variable (len : Nat) (q r : Byte) (neg zero : Bool) (s : State)

theorem a_afterDivision : (afterDivision len q r neg zero s).a = q := by
  have kept : ((s.setA q).setReg8 .l r).a = q := (reg8_setReg8_ne _ (g' := .a) (by decide) r).trans (a_setA q)
  exact (a_putFlags_advance _).trans kept

theorem l_afterDivision : (afterDivision len q r neg zero s).reg8 .l = r := by
  simp [afterDivision, - setA_eq]

theorem flagsAre_afterDivision :
    FlagsAre (afterDivision len q r neg zero s) neg zero s.f.h false s.f.n s.f.c :=
  flagsAre_putFlags_advance (s := s) ((f_setReg8 _ .l r).trans (f_setA q)) (quotientFlags neg zero)

theorem frame_afterDivision :
    SameMemory s (afterDivision len q r neg zero s) ∧ Completed len s (afterDivision len q r neg zero s)
      ∧ Unchanged [.r8 .a, .r8 .l] s (afterDivision len q r neg zero s)
      ∧ SameTrace s (afterDivision len q r neg zero s) :=
  frame_putFlags_advance _ ((unchanged_setA s q).trans (unchanged_setReg8 _ .l r)) (.of_eq rfl rfl) rfl rfl

end

/-! #### Signed -/

theorem toInt_eq_zero_iff {w : Nat} {b : BitVec w} : b.toInt = 0 ↔ b = 0 := by
  rw [← BitVec.toInt_inj]
  simp

/-- A remainder is smaller than its divisor, so it has a place in the divisor's width. -/
theorem toInt_ofInt_tmod {k : Nat} (a : Int) {b : BitVec (k + 1)} (hb : b ≠ 0) :
    (BitVec.ofInt (k + 1) (Int.tmod a b.toInt)).toInt = Int.tmod a b.toInt := by
  have size := Int.natAbs_tmod a b.toInt
  have smaller := Nat.mod_lt a.natAbs (Int.natAbs_pos.mpr (mt toInt_eq_zero_iff.mp hb))
  have bounds := toInt_bounds b
  push_cast at bounds
  exact BitVec.toInt_ofInt_eq_self k.succ_pos (show -(2 : Int) ^ k ≤ _ by omega) (show _ < (2 : Int) ^ k by omega)

theorem div8_zeroDivisor {src : Src8} (hv : rd8 len src s = .ok v) (zero : v = 0) :
    div8 len src s = divisionTrap .zeroDivisor s := by
  rw [div8, hv, settle_ok, if_pos (toInt_eq_zero_iff.mpr zero)]

theorem div8_overflow {src : Src8} (hv : rd8 len src s = .ok v) (nonzero : v ≠ 0)
    (big : Int.tdiv s.hl.toInt v.toInt < -128 ∨ 127 < Int.tdiv s.hl.toInt v.toInt) :
    div8 len src s = divisionTrap .overflow s := by
  rw [div8, hv, settle_ok, if_neg (mt toInt_eq_zero_iff.mp nonzero)]
  exact if_pos big

theorem div8_quotient {src : Src8} (hv : rd8 len src s = .ok v) (nonzero : v ≠ 0)
    (lower : -128 ≤ Int.tdiv s.hl.toInt v.toInt) (upper : Int.tdiv s.hl.toInt v.toInt ≤ 127) :
    div8 len src s =
      .next (afterDivision len (BitVec.ofInt 8 (Int.tdiv s.hl.toInt v.toInt))
        (BitVec.ofInt 8 (Int.tmod s.hl.toInt v.toInt)) (decide (Int.tdiv s.hl.toInt v.toInt < 0))
        (decide (Int.tdiv s.hl.toInt v.toInt = 0)) s) := by
  rw [div8, hv, settle_ok, if_neg (mt toInt_eq_zero_iff.mp nonzero)]
  exact if_neg (by omega)

/-! #### Unsigned -/

theorem toNat_eq_zero_iff {w : Nat} {b : BitVec w} : b.toNat = 0 ↔ b = 0 := by
  rw [← BitVec.toNat_inj]
  simp

/-- The quotient has more than eight bits exactly where the high byte of the dividend is at least the divisor (R199). -/
theorem quotient_big_iff (w : Word) (nonzero : v ≠ 0) : 256 ≤ w.toNat / v.toNat ↔ v.toNat ≤ (hiByte w).toNat := by
  have pos : 0 < v.toNat := BitVec.toNat_pos_of_ne_zero nonzero
  rw [hiByte_toNat, Nat.le_div_iff_mul_le pos, Nat.le_div_iff_mul_le (by decide), Nat.mul_comm]

theorem divu8_zeroDivisor {src : Src8} (hv : rd8 len src s = .ok v) (zero : v = 0) :
    divu8 len src s = divisionTrap .zeroDivisor s := by
  rw [divu8, hv, settle_ok, if_pos (toNat_eq_zero_iff.mpr zero)]

theorem divu8_overflow {src : Src8} (hv : rd8 len src s = .ok v) (nonzero : v ≠ 0)
    (big : v.toNat ≤ (s.reg8 .h).toNat) : divu8 len src s = divisionTrap .overflow s := by
  rw [divu8, hv, settle_ok, if_neg (mt toNat_eq_zero_iff.mp nonzero)]
  exact if_pos ((quotient_big_iff s.hl nonzero).mpr big)

theorem divu8_quotient {src : Src8} (hv : rd8 len src s = .ok v) (nonzero : v ≠ 0)
    (small : (s.reg8 .h).toNat < v.toNat) :
    divu8 len src s =
      .next (afterDivision len (BitVec.ofNat 8 (s.hl.toNat / v.toNat)) (BitVec.ofNat 8 (s.hl.toNat % v.toNat)) false
        (decide (s.hl.toNat / v.toNat = 0)) s) := by
  rw [divu8, hv, settle_ok, if_neg (mt toNat_eq_zero_iff.mp nonzero)]
  exact if_neg (mt (quotient_big_iff s.hl nonzero).mp (Nat.not_le_of_lt small))

end

/-! ### Sign extension of a word -/

/-- The high word of a sign-extended word is all ones or all zeros, and counts 65,536 each (R229). -/
theorem signWord_toInt (w : Word) :
    (if w.getLsbD 15 then 0xFFFF else 0 : Word).toInt * 65536 + w.toNat = w.toInt := by
  rw [BitVec.toInt_eq_msb_cond w, BitVec.msb_eq_getLsbD_last]
  cases w.getLsbD 15 with
  | true => simp; omega
  | false => simp

/-! ### The statements -/

/-- Settles O31: both operations are one sum, with or without the carry. -/
theorem addByteResult : Obligations.AddByteResult := by
  intro op i len src hop hi s v cin hcin hv
  have result : (((s.setA (add8 s.a v cin).res).putFlags (add8 s.a v cin).all).advance len).a = (add8 s.a v cin).res :=
    (a_putFlags_advance _).trans (a_setA _)
  refine ⟨_, hi.exec_adc_or_add hop hcin hv, ?sum, ?flags, frame_setA_putFlags_advance s len _ _⟩
  case sum =>
    rw [result]
    exact adder_res_toNat 4 s.a v cin
  case flags =>
    rw [result]
    exact flagsAre_add8 ..

/-- Settles O32: the parity of R13 is the count of the 1 bits. -/
theorem andByteResult : Obligations.AndByteResult := by
  intro i len src hi s v hv
  have executed : exec i s = andA len src s := hi.exec_eq
  rw [andA, hv, settle_ok] at executed
  refine ⟨_, executed, (a_putFlags_advance _).trans (a_setA _), ?_, frame_setA_putFlags_advance s len _ _⟩
  rw [← parityEven_eq_countP]
  exact flagsAre_putFlags_advance (f_setA _) _

/-- Settles O33: the flags of the difference are comparisons, and nothing else is written. -/
theorem compareByteResult : Obligations.CompareByteResult := by
  intro i len src hi s v hv
  have executed : exec i s = cpA len src s := hi.exec_eq
  rw [cpA, hv, settle_ok] at executed
  exact ⟨_, executed, flagsAre_sub8 .., frame_putFlags_advance _ (.refl [] s) (.of_eq rfl rfl) rfl rfl⟩

/-- Settles O34: CPL writes A and two flags, CCF three flags. -/
theorem complementResults : Obligations.ComplementResults := by
  refine ⟨fun s => ?_, fun s => ?_⟩
  · exact ⟨_, exec_cpl s, (a_putFlags_advance _).trans (a_setA _), flagsAre_putFlags_advance (f_setA _) _,
      frame_setA_putFlags_advance s 1 _ _⟩
  · exact ⟨_, exec_ccf s, flagsAre_putFlags_advance rfl _,
      frame_putFlags_advance _ (.refl [] s) (.of_eq rfl rfl) rfl rfl⟩

/-- Settles O35: the row that hits is the row that is found, since no other row hits. -/
theorem decimalAdjustResult : Obligations.DecimalAdjustResult := by
  refine ⟨fun s row mem hit => ?_, fun s outside => ?_⟩
  · refine ⟨_, exec_daa_of_hits mem hit, (a_putFlags_advance _).trans (a_setA _), ?_,
      frame_setA_putFlags_advance s 1 _ _⟩
    rw [a_putFlags_advance, a_setA, ← parityEven_eq_countP]
    exact flagsAre_putFlags_advance (f_setA _) _
  · rw [exec_daa, decimalAdjust, daaRow_eq_none_iff.mpr outside]

/-- Settles O36: the sums of the digits are what the addition leaves in A, H and C, and they choose the row. -/
theorem decimalAdjustMakesBcdSums : Obligations.DecimalAdjustMakesBcdSums := by
  intro s x y cin hx hy ha hn hh hc
  have xDigits := bcd_toNat hx
  have yDigits := bcd_toNat hy
  have carryIn := Bool.toNat_le cin
  have acc : s.a.toNat = (16 * (x / 10 + y / 10) + (x % 10 + y % 10 + cin.toNat)) % 256 := by
    rw [ha]
    exact (adder_res_toNat 4 (bcd x) (bcd y) cin).trans (by omega)
  have half : s.f.h = decide (16 ≤ x % 10 + y % 10 + cin.toNat) := by
    rw [hh]
    exact eq_decide_of_iff ((adder_h_iff 4 (bcd x) (bcd y) cin).trans (by omega))
  have carry : s.f.c = decide (256 ≤ 16 * (x / 10 + y / 10) + (x % 10 + y % 10 + cin.toNat)) := by
    rw [hc]
    exact eq_decide_of_iff ((adder_c_iff 4 (bcd x) (bcd y) cin).trans (by omega))
  obtain ⟨row, mem, hit, sum, carryOut⟩ := bcdSum_row (by omega) (by omega) acc hn half carry
  refine ⟨_, exec_daa_of_hits mem hit, ?digits, ?carry⟩
  case digits =>
    rw [a_putFlags_advance, a_setA, sum]
    omega
  case carry =>
    have reaches : 10 ≤ x / 10 + y / 10 + (x % 10 + y % 10 + cin.toNat) / 10 ↔ 100 ≤ x + y + cin.toNat := by omega
    rw [← decide_eq_decide.mpr reaches, ← carryOut]
    simp

/-- Settles O37: an increment is a sum with 1, a decrement a difference with 1. -/
theorem countByteResult : Obligations.CountByteResult := by
  intro d i len dst hi s v r hm hv hw hr
  cases d with
  | dec =>
    obtain rfl : r = (sub8 v 1 false).res := hr.trans (subtracter_res_eq_sub 4 v 1).symm
    have executed : exec i s = dec8 len dst s := hi.exec_eq
    rw [dec8, hv, settle_ok] at executed
    obtain ⟨t, ht, wrote, flags, frame⟩ := count_of_writable (sub8 v 1 false) hm hw
    rw [sub8_one_h, sub8_one_v] at flags
    exact ⟨t, executed.trans ht, wrote, flags, frame⟩
  | inc =>
    obtain rfl : r = (add8 v 1 false).res := hr.trans (add8_one_res v).symm
    have executed : exec i s = inc8 len dst s := hi.exec_eq
    rw [inc8, hv, settle_ok] at executed
    obtain ⟨t, ht, wrote, flags, frame⟩ := count_of_writable (add8 v 1 false) hm hw
    rw [add8_one_h, add8_one_v] at flags
    exact ⟨t, executed.trans ht, wrote, flags, frame⟩

/-- Settles O38, one case of R198 after the other. -/
theorem divideByteSigned : Obligations.DivideByteSigned := by
  intro i len src hi s v hv
  have executed : exec i s = div8 len src s := hi.exec_eq
  rw [executed]
  refine ⟨fun nonzero lower upper => ?_, fun zero => ?_, fun nonzero big => ?_⟩
  · refine ⟨_, div8_quotient hv nonzero lower upper, ?quotient, ?remainder, flagsAre_afterDivision ..,
      frame_afterDivision ..⟩
    case quotient =>
      rw [a_afterDivision]
      exact BitVec.toInt_ofInt_eq_self (by decide) lower (Int.lt_of_le_sub_one upper)
    case remainder =>
      rw [l_afterDivision]
      exact toInt_ofInt_tmod s.hl.toInt nonzero
  · rw [div8_zeroDivisor hv zero]
    exact divisionTrap_faults .zeroDivisor s
  · rw [div8_overflow hv nonzero big]
    exact divisionTrap_faults .overflow s

/-- Settles O39, one case of R199 after the other. -/
theorem divideByteUnsigned : Obligations.DivideByteUnsigned := by
  intro i len src hi s v hv
  have executed : exec i s = divu8 len src s := hi.exec_eq
  rw [executed]
  refine ⟨fun nonzero small => ?_, fun zero => ?_, fun nonzero big => ?_⟩
  · have pos : 0 < v.toNat := BitVec.toNat_pos_of_ne_zero nonzero
    have fits : s.hl.toNat / v.toNat < 256 :=
      Nat.lt_of_not_le (mt (quotient_big_iff s.hl nonzero).mp (Nat.not_le_of_lt small))
    have zero_iff : s.hl.toNat / v.toNat = 0 ↔ s.hl.toNat < v.toNat := by
      rw [Nat.div_eq_zero_iff]
      omega
    refine ⟨_, divu8_quotient hv nonzero small, ?quotient, ?remainder, ?flags, frame_afterDivision ..⟩
    case quotient =>
      rw [a_afterDivision, BitVec.toNat_ofNat]
      exact Nat.mod_eq_of_lt fits
    case remainder =>
      rw [l_afterDivision, BitVec.toNat_ofNat]
      exact Nat.mod_eq_of_lt ((Nat.mod_lt _ pos).trans v.isLt)
    case flags =>
      rw [← decide_eq_decide.mpr zero_iff]
      exact flagsAre_afterDivision ..
  · rw [divu8_zeroDivisor hv zero]
    exact divisionTrap_faults .zeroDivisor s
  · rw [divu8_overflow hv nonzero big]
    exact divisionTrap_faults .overflow s

/-- Settles O40: a sign-extended word has the value it was extended from. -/
theorem extendSignResults : Obligations.ExtendSignResults := by
  refine ⟨fun s => ?_, fun s => ?_⟩
  · refine ⟨_, exec_extsA s, ?_, rfl, .of_eq rfl rfl, completed_advance 2 rfl,
      (unchanged_setReg16 s .hl (s.a.signExtend 16)).advance, rfl⟩
    have result : ((s.setHL (s.a.signExtend 16)).advance 2).hl = s.a.signExtend 16 := by simp
    rw [result]
    exact BitVec.toInt_signExtend_of_le (by decide)
  · refine ⟨_, exec_extsHl s, ?_, rfl, .of_eq rfl rfl, completed_advance 2 rfl,
      (unchanged_setReg16 s .de _).advance, rfl⟩
    have result : ((s.setDE (if s.hl.getLsbD 15 then 0xFFFF else 0)).advance 2).de =
      if s.hl.getLsbD 15 then 0xFFFF else 0 := by simp
    have kept : ((s.setDE (if s.hl.getLsbD 15 then 0xFFFF else 0)).advance 2).hl = s.hl := by simp
    rw [result, kept]
    exact signWord_toInt s.hl

end Sys2Proof.Machine
end

section
/-! PROOFS. The 16-bit arithmetic group (44_arith16.md R220 to R230) but EXTS HL. The sums and the comparison write one
16-bit register, or none, and then the flags, which are comparisons of numbers as R17 has them; DECW and INCW are the word
load of the counted value; a word division has the three cases of a byte division on a 32-bit dividend. -/

namespace Sys2Proof.Machine

section

variable {s : State} {i : Instr} {len : Nat} {v : Word}

/-! ### A 16-bit register written, then the flags -/

theorem reg16_putFlags_advance (u : State) (len : Nat) (g : Flags → Flags) (d : Reg16) :
    ((u.putFlags g).advance len).reg16 d = u.reg16 d :=
  (reg16_jump _ _ d).trans (reg16_putFlags u g d)

theorem reg16_setReg16_putFlags_advance (s : State) (len : Nat) (d : Reg16) (v : Word) (g : Flags → Flags) :
    (((s.setReg16 d v).putFlags g).advance len).reg16 d = v :=
  (reg16_putFlags_advance ..).trans (reg16_setReg16_same s d v)

theorem frame_setReg16_putFlags_advance (s : State) (len : Nat) (d : Reg16) (v : Word) (g : Flags → Flags) :
    SameMemory s (((s.setReg16 d v).putFlags g).advance len)
      ∧ Completed len s (((s.setReg16 d v).putFlags g).advance len)
      ∧ Unchanged (d.regs s) s (((s.setReg16 d v).putFlags g).advance len)
      ∧ SameTrace s (((s.setReg16 d v).putFlags g).advance len) :=
  frame_putFlags_advance g (unchanged_setReg16 s d v) (.of_eq (mem_setReg16 s d v) (written_setReg16 s d v))
    (pc_setReg16 s d v) (ioTrace_setReg16 s d v)

/-! ### Sums -/

theorem add16_h_eq (a v : Word) (cin : Bool) :
    (add16 a v cin).h = decide (4096 ≤ a.toNat % 4096 + v.toNat % 4096 + cin.toNat) :=
  eq_decide_of_iff (adder_h_iff 12 a v cin)

theorem add16_v_eq (a v : Word) (cin : Bool) :
    (add16 a v cin).v
      = decide (a.toInt + v.toInt + cin.toNat < -32768 ∨ 32767 < a.toInt + v.toInt + cin.toNat) :=
  eq_decide_of_iff (adder_v_iff 12 a v cin)

theorem add16_c_eq (a v : Word) (cin : Bool) :
    (add16 a v cin).c = decide (65536 ≤ a.toNat + v.toNat + cin.toNat) :=
  eq_decide_of_iff (adder_c_iff 12 a v cin)

theorem add16_res_eq_add (a v : Word) : (add16 a v false).res = a + v :=
  BitVec.eq_of_toNat_eq (adder_res_toNat 12 a v false)

/-- The six flags of a sum without a carry. -/
theorem flagsAre_add16 (len : Nat) (u : State) (a v : Word) :
    FlagsAre ((u.putFlags (add16 a v false).all).advance len) ((a + v).getLsbD 15) (decide (a + v = 0))
      (decide (4096 ≤ a.toNat % 4096 + v.toNat % 4096))
      (decide (a.toInt + v.toInt < -32768 ∨ 32767 < a.toInt + v.toInt)) false
      (decide (65536 ≤ a.toNat + v.toNat)) := by
  have written := flagsAre_putFlags_advance (len := len) (u := u) rfl (add16 a v false).all
  have overflow := add16_v_eq a v false
  rw [Bool.toNat_false, Int.natCast_zero, Int.add_zero] at overflow
  rw [← add16_res_eq_add, ← overflow]
  rwa [Alu.all, add16_h_eq, add16_c_eq] at written

/-! ### ADC and ADD of a register -/

/-- The flags that ADC and ADD of a register write: all six, or H, N and C (R221, R222). -/
def AddKind.write (k : AddKind) (x : Alu 16) : Flags → Flags :=
  match k with
  | .adc => x.all
  | .add => fun f => { f with h := x.h, n := false, c := x.c }

theorem AddKind.write_h (k : AddKind) (x : Alu 16) (f : Flags) : (k.write x f).h = x.h := by cases k <;> rfl

theorem AddKind.write_c (k : AddKind) (x : Alu 16) (f : Flags) : (k.write x f).c = x.c := by cases k <;> rfl

theorem AddKind.write_n (k : AddKind) (a b : Word) (cin : Bool) (f : Flags) : (k.write (add16 a b cin) f).n = false := by
  cases k <;> rfl

/-- Both operations are one sum, with or without the carry. -/
theorem AddWordForm.exec_eq {k : AddKind} {d w : Reg16} {cin : Bool} (h : AddWordForm k i len d w)
    (hcin : cin = (decide (k = .adc) && s.f.c)) :
    exec i s = .next (((s.setReg16 d (add16 (s.reg16 d) (s.reg16 w) cin).res).putFlags
      (k.write (add16 (s.reg16 d) (s.reg16 w) cin))).advance len) := by
  subst hcin
  cases h <;> rfl

theorem AddAccumulatorForm.exec_eq {d : Reg16} (h : AddAccumulatorForm i len d) :
    exec i s = addAccumulator len d s := by
  cases h <;> rfl

/-! ### Differences -/

theorem sub16_s_eq (a v : Word) : (sub16 a v false).s = (a - v).getLsbD 15 :=
  congrArg (BitVec.getLsbD · 15) (subtracter_res_eq_sub 12 a v)

theorem sub16_z_eq (a v : Word) : (sub16 a v false).z = decide (a = v) := by
  have z_eq : (sub16 a v false).z = decide (a - v = 0) := congrArg (decide <| · = 0) (subtracter_res_eq_sub 12 a v)
  rw [z_eq, decide_eq_decide]
  exact sub_eq_zero

theorem sub16_h_eq (a v : Word) : (sub16 a v false).h = decide (a.toNat % 4096 < v.toNat % 4096) :=
  eq_decide_of_iff (subtracter_h_iff 12 a v false)

theorem sub16_v_eq (a v : Word) :
    (sub16 a v false).v = decide (a.toInt - v.toInt < -32768 ∨ 32767 < a.toInt - v.toInt) := by
  have overflow := subtracter_v_iff 12 a v false
  rw [Bool.toNat_false, Int.natCast_zero, Int.sub_zero] at overflow
  exact eq_decide_of_iff overflow

theorem sub16_c_eq (a v : Word) : (sub16 a v false).c = decide (a.toNat < v.toNat) :=
  eq_decide_of_iff (subtracter_c_iff 12 a v false)

/-- The six flags of a difference without a borrow. -/
theorem flagsAre_sub16 (len : Nat) (u : State) (a v : Word) :
    FlagsAre ((u.putFlags (sub16 a v false).all).advance len) ((a - v).getLsbD 15) (decide (a = v))
      (decide (a.toNat % 4096 < v.toNat % 4096)) (decide (a.toInt - v.toInt < -32768 ∨ 32767 < a.toInt - v.toInt)) true
      (decide (a.toNat < v.toNat)) := by
  have written := flagsAre_putFlags_advance (len := len) (u := u) rfl (sub16 a v false).all
  rwa [← sub16_s_eq, ← sub16_z_eq, ← sub16_h_eq, ← sub16_v_eq, ← sub16_c_eq]

/-! ### Counting by one: the word load of the counted value -/

theorem decw_of_read {dst : Loc16} (hv : rdLoc16 len dst s = .ok v) : decw len dst s = ldw len dst (v - 1) s := by
  rw [decw, hv, settle_ok, ldw]

theorem incw_of_read {dst : Loc16} (hv : rdLoc16 len dst s = .ok v) : incw len dst s = ldw len dst (v + 1) s := by
  rw [incw, hv, settle_ok, ldw]

theorem ldw_of_writable {dst : Loc16} (v : Word) (hm : s.mem.wf = true) (hw : Writable16 len dst s) :
    ∃ t : State, ldw len dst v s = .next t ∧ Wrote16 len dst v s t ∧ SameFlags s t ∧ Completed len s t
      ∧ Unchanged (dst.regs s) s t ∧ SameTrace s t := by
  obtain ⟨u, hu, wrote, frame, flags, pc, trace⟩ := wr16_of_writable v hw hm
  rw [ldw, hu, settle_ok]
  exact ⟨_, rfl, wrote.advance, flags, completed_advance len pc, frame.advance, trace⟩

/-! ### Divisions -/

/-- The state after CASE 1 of a word division, which leaves `q` in HL and `r` in DE (R227, R228). -/
def afterWordDivision (len : Nat) (q r : Word) (neg zero : Bool) (s : State) : State :=
  (((s.setHL q).setDE r).putFlags (quotientFlags neg zero)).advance len

section
variable (len : Nat) (q r : Word) (neg zero : Bool) (s : State)

theorem hl_afterWordDivision : (afterWordDivision len q r neg zero s).hl = q := by simp [afterWordDivision]

theorem de_afterWordDivision : (afterWordDivision len q r neg zero s).de = r := by simp [afterWordDivision]

theorem flagsAre_afterWordDivision :
    FlagsAre (afterWordDivision len q r neg zero s) neg zero s.f.h false s.f.n s.f.c :=
  flagsAre_putFlags_advance ((f_setReg16 _ .de r).trans (f_setReg16 s .hl q)) (quotientFlags neg zero)

theorem frame_afterWordDivision :
    SameMemory s (afterWordDivision len q r neg zero s) ∧ Completed len s (afterWordDivision len q r neg zero s)
      ∧ Unchanged [.r8 .d, .r8 .e, .r8 .h, .r8 .l] s (afterWordDivision len q r neg zero s)
      ∧ SameTrace s (afterWordDivision len q r neg zero s) := by
  have frame := (unchanged_setReg16 s .hl q).trans (unchanged_setReg16 _ .de r)
  exact frame_putFlags_advance _ (frame.mono (by simp [Reg16.regs])) (.of_eq rfl rfl) rfl rfl

end

/-! #### The dividend -/

theorem dehl_toInt (s : State) : s.dehl.toInt = s.de.toInt * 65536 + s.hl.toNat := by
  rw [Int.mul_comm]
  exact BitVec.toInt_append

theorem dehl_toNat (s : State) : s.dehl.toNat = s.de.toNat * 65536 + s.hl.toNat := by
  rw [State.dehl, BitVec.toNat_append, ← Nat.shiftLeft_add_eq_or_of_lt s.hl.isLt, Nat.shiftLeft_eq]

/-! #### The three cases, by the dividend as a number -/

theorem divw_of_read {src : Src16} {n : Int} (hv : rd16 len src s = .ok v)
    (hn : n = s.de.toInt * 65536 + s.hl.toNat) :
    divw len src s =
      if v = 0 then divisionTrap .zeroDivisor s
      else if Int.tdiv n v.toInt < -32768 ∨ 32767 < Int.tdiv n v.toInt then divisionTrap .overflow s
      else .next (afterWordDivision len (BitVec.ofInt 16 (Int.tdiv n v.toInt)) (BitVec.ofInt 16 (Int.tmod n v.toInt))
        (decide (Int.tdiv n v.toInt < 0)) (decide (Int.tdiv n v.toInt = 0)) s) := by
  obtain rfl : n = s.dehl.toInt := hn.trans (dehl_toInt s).symm
  rw [divw, hv, settle_ok]
  exact if_congr toInt_eq_zero_iff rfl rfl

theorem divuw_of_read {src : Src16} {n : Nat} (hv : rd16 len src s = .ok v)
    (hn : n = s.de.toNat * 65536 + s.hl.toNat) :
    divuw len src s =
      if v = 0 then divisionTrap .zeroDivisor s
      else if 65536 ≤ n / v.toNat then divisionTrap .overflow s
      else .next (afterWordDivision len (BitVec.ofNat 16 (n / v.toNat)) (BitVec.ofNat 16 (n % v.toNat)) false
        (decide (n / v.toNat = 0)) s) := by
  obtain rfl : n = s.dehl.toNat := hn.trans (dehl_toNat s).symm
  rw [divuw, hv, settle_ok]
  exact if_congr toNat_eq_zero_iff rfl rfl

/-- The quotient has more than sixteen bits exactly where the high word of the dividend is at least the divisor (R228). -/
theorem wordQuotient_big_iff {n : Nat} (hn : n = s.de.toNat * 65536 + s.hl.toNat) (nonzero : v ≠ 0) :
    65536 ≤ n / v.toNat ↔ v.toNat ≤ s.de.toNat := by
  have low := s.hl.isLt
  rw [Nat.le_div_iff_mul_le (BitVec.toNat_pos_of_ne_zero nonzero), hn]
  omega

end

/-! ### The statements -/

/-- Settles O41: ADC and ADD differ in the carry that goes in and in the flags that come out. -/
theorem addWordRegisters : Obligations.AddWordRegisters := by
  intro k i len d w hi s cin hcin
  obtain ⟨sign, zero, half, overflow, subtract, carry⟩ :=
    flagsAre_putFlags_advance (len := len) (f_setReg16 s d (add16 (s.reg16 d) (s.reg16 w) cin).res)
      (k.write (add16 (s.reg16 d) (s.reg16 w) cin))
  rw [k.write_h, add16_h_eq] at half
  rw [k.write_n] at subtract
  rw [k.write_c, add16_c_eq] at carry
  refine ⟨_, hi.exec_eq hcin, ?sum, ?adc, ?add, half, subtract, carry, frame_setReg16_putFlags_advance ..⟩
  case sum =>
    rw [reg16_setReg16_putFlags_advance]
    exact adder_res_toNat 12 _ _ cin
  case adc =>
    rintro rfl
    rw [reg16_setReg16_putFlags_advance]
    exact ⟨sign, zero, overflow.trans (add16_v_eq ..)⟩
  case add =>
    rintro rfl
    exact ⟨sign, zero, overflow⟩

/-- Settles O42: the sign-extended accumulator has the value of the accumulator. -/
theorem addAccumulatorResult : Obligations.AddAccumulatorResult := by
  intro i len d hi s
  have extended : (s.a.signExtend 16).toInt = s.a.toInt := BitVec.toInt_signExtend_of_le (by decide)
  refine ⟨_, hi.exec_eq, ?sum, ?flags, frame_setReg16_putFlags_advance ..⟩
  case sum =>
    rw [reg16_setReg16_putFlags_advance, add16_res_eq_add]
    exact add_signExtend_toNat _ s.a
  case flags =>
    rw [reg16_setReg16_putFlags_advance, add16_res_eq_add, ← extended]
    exact flagsAre_add16 ..

/-- Settles O43: the sum is written to HL, the difference nowhere. -/
theorem addAndCompareWord : Obligations.AddAndCompareWord := by
  refine ⟨fun i len src hi s v hv => ?_, fun i len src hi s v hv => ?_⟩
  · have executed : exec i s = addw len src s := hi.exec_eq
    rw [addw, hv, settle_ok] at executed
    exact ⟨_, executed, (reg16_setReg16_putFlags_advance s len .hl _ _).trans (add16_res_eq_add ..), flagsAre_add16 ..,
      frame_setReg16_putFlags_advance s len .hl _ _⟩
  · have executed : exec i s = cpw len src s := hi.exec_eq
    rw [cpw, hv, settle_ok] at executed
    exact ⟨_, executed, flagsAre_sub16 .., frame_putFlags_advance _ (.refl [] s) (.of_eq rfl rfl) rfl rfl⟩

/-- Settles O44: the word that was read is written back, one higher or one lower. -/
theorem countWordResult : Obligations.CountWordResult := by
  intro d i len dst hi s v hm hv hw
  cases d with
  | dec =>
    have executed : exec i s = decw len dst s := hi.exec_eq
    rw [executed, decw_of_read hv]
    exact ldw_of_writable (v - 1) hm hw
  | inc =>
    have executed : exec i s = incw len dst s := hi.exec_eq
    rw [executed, incw_of_read hv]
    exact ldw_of_writable (v + 1) hm hw

/-- Settles O45, one case of R227 after the other. -/
theorem divideWordSigned : Obligations.DivideWordSigned := by
  intro i len src hi s v n hv hn
  have executed : exec i s = divw len src s := hi.exec_eq
  rw [executed, divw_of_read hv hn]
  refine ⟨fun nonzero lower upper => ?_, fun zero => ?_, fun nonzero big => ?_⟩
  · rw [if_neg nonzero, if_neg (by omega)]
    refine ⟨_, rfl, ?quotient, ?remainder, flagsAre_afterWordDivision .., frame_afterWordDivision ..⟩
    case quotient =>
      rw [hl_afterWordDivision]
      exact BitVec.toInt_ofInt_eq_self (by decide) lower (Int.lt_of_le_sub_one upper)
    case remainder =>
      rw [de_afterWordDivision]
      exact toInt_ofInt_tmod n nonzero
  · rw [if_pos zero]
    exact divisionTrap_faults .zeroDivisor s
  · rw [if_neg nonzero, if_pos big]
    exact divisionTrap_faults .overflow s

/-- Settles O46, one case of R228 after the other. -/
theorem divideWordUnsigned : Obligations.DivideWordUnsigned := by
  intro i len src hi s v n hv hn
  have executed : exec i s = divuw len src s := hi.exec_eq
  rw [executed, divuw_of_read hv hn]
  refine ⟨fun nonzero small => ?_, fun zero => ?_, fun nonzero big => ?_⟩
  · have pos : 0 < v.toNat := BitVec.toNat_pos_of_ne_zero nonzero
    have fits : ¬65536 ≤ n / v.toNat := mt (wordQuotient_big_iff hn nonzero).mp (Nat.not_le_of_lt small)
    have zero_iff : n / v.toNat = 0 ↔ n < v.toNat := by
      rw [Nat.div_eq_zero_iff]
      omega
    rw [if_neg nonzero, if_neg fits, ← decide_eq_decide.mpr zero_iff]
    refine ⟨_, rfl, ?quotient, ?remainder, flagsAre_afterWordDivision .., frame_afterWordDivision ..⟩
    case quotient =>
      rw [hl_afterWordDivision, BitVec.toNat_ofNat]
      exact Nat.mod_eq_of_lt (Nat.lt_of_not_le fits)
    case remainder =>
      rw [de_afterWordDivision, BitVec.toNat_ofNat]
      exact Nat.mod_eq_of_lt ((Nat.mod_lt _ pos).trans v.isLt)
  · rw [if_pos zero]
    exact divisionTrap_faults .zeroDivisor s
  · rw [if_neg nonzero, if_pos ((wordQuotient_big_iff hn nonzero).mpr big)]
    exact divisionTrap_faults .overflow s

end Sys2Proof.Machine
end

section
/-! PROOFS. The bit test of 45_bit.md R251: the operand is read once, then three flags are written as a comparison writes
its flags, so the frame is that of `frame_putFlags_advance` on the state itself. -/

namespace Sys2Proof.Machine

/-- A bit test whose operand is read writes Z, H and N and goes on to the next instruction. -/
theorem bitTest_of_read {s : State} {len : Nat} {dst : Loc8} {v : Byte} (b : BitVec 3) (hv : rdLoc8 len dst s = .ok v) :
    bitTest len b dst s
      = .next ((s.putFlags fun f => { f with z := !v.getLsbD b.toNat, h := true, n := false }).advance len) := by
  rw [bitTest, hv, settle_ok]

/-- Settles O47: of the flags only Z, H and N are written, and nothing is stored. -/
theorem bitTestResult : Obligations.BitTestResult := by
  intro i len b dst hi s v hv
  have executed := hi.exec_eq.trans (bitTest_of_read b hv)
  exact ⟨_, executed, flagsAre_putFlags_advance rfl _, frame_putFlags_advance _ (.refl [] s) (.of_eq rfl rfl) rfl rfl⟩

end Sys2Proof.Machine
end

section
/-! PROOFS. The control transfers of 46_control.md R260 to R268. A jump sets PC and `ei_shadow` and nothing else, so
each frame is that of the updates before the jump: none for JP, JR, JAF and JAR, the count of B for DJNZ, the push for
CALL. -/

namespace Sys2Proof.Machine

section

variable {s : State} {i : Instr} {len : Nat} {c : Cond} {p p' : PhysAddr}

/-! ### Where a transfer goes -/

/-- The address that a transfer goes to when it is taken (R268). -/
def JumpTarget.addr (len : Nat) (s : State) : JumpTarget → Word
  | .operand m => target len m s
  | .short disp => shortTarget len disp s

theorem shortTarget_toNat (len : Nat) (d : Byte) (s : State) :
    ((shortTarget len d s).toNat : Int) = (s.pc.toNat + len + d.toInt) % 65536 := by
  rw [shortTarget, add_signExtend_toNat, State.pcNext, BitVec.toNat_add, BitVec.toNat_ofNat]
  omega

theorem JumpForm.exec_eq {g : JumpTarget} (h : JumpForm i len c g) :
    exec i s = .next (if c.holds s then s.jump (g.addr len s) else s.advance len) := by
  cases h with
  | jpCcHl cc => cases cc <;> rfl
  | jpCc cc _ => cases cc <;> rfl
  | jpCcRa cc _ => cases cc <;> rfl
  | jrCc jcc _ => cases jcc <;> rfl
  | _ => rfl

/-- Taken or not, the transfer is one jump, and the condition chooses only its address. -/
theorem JumpForm.exec_eq_jump {g : JumpTarget} (h : JumpForm i len c g) :
    exec i s = .next (s.jump (if c.holds s then g.addr len s else s.pcNext len)) := by
  rw [h.exec_eq, apply_ite s.jump]
  rfl

/-- The count falls through where the count was 1, the one byte whose predecessor is zero. -/
theorem decrementJump_eq_jump (len : Nat) (d : Byte) (s : State) :
    decrementJump len d s =
      .next ((s.setReg8 .b (s.reg8 .b - 1)).jump (if s.reg8 .b = 1 then s.pcNext len else shortTarget len d s)) := by
  have nonzero_iff : s.reg8 .b - 1 ≠ 0 ↔ s.reg8 .b ≠ 1 := sub_ne_zero
  simp only [decrementJump]
  by_cases last : s.reg8 .b = 1
  · rw [if_pos last, if_neg (mt nonzero_iff.mp (not_not.mpr last))]
    simp [State.pcNext]
  · rw [if_neg last, if_pos (nonzero_iff.mpr last)]

/-! ### The push of CALL -/

/-- The state after a push of `v` whose two bytes are stored at `p` and `p'` (R261). -/
def State.pushed (s : State) (p p' : PhysAddr) (v : Word) : State :=
  ((s.putByte p (loByte v)).putByte p' (hiByte v)).setSP (s.sp - 2)

theorem push16_of_reach (v : Word) (hp : s.reach s.curData .write (s.sp - 2) = .ok p)
    (hp' : s.reach s.curData .write (s.sp - 2 + 1) = .ok p') : s.push16 v = .ok (s.pushed p p' v) :=
  push16_eq_ok.mpr ⟨_, writeWord_of_reach hp hp', by rw [State.pushed]⟩

@[simp] theorem sp_pushed (v : Word) : (s.pushed p p' v).sp = s.sp - 2 := sp_setSP _ _

theorem storedWord_pushed (hm : s.mem.wf = true) (v : Word) :
    StoredWord p p' (loByte v) (hiByte v) s (s.pushed p p' v) :=
  (storedWord_putByte hm p p' _ _).congr rfl rfl

theorem unchanged_setSP (s : State) (v : Word) : Unchanged (Reg16.sp.regs s) s (s.setSP v) := unchanged_setReg16 s .sp v

theorem unchanged_pushed (v : Word) : Unchanged (Reg16.sp.regs s) s (s.pushed p p' v) := by
  have stored := (unchanged_putByte s p (loByte v)).trans (unchanged_putByte _ p' (hiByte v))
  have moved := stored.trans (unchanged_setSP _ (s.sp - 2))
  have same_sp : Reg16.sp.regs ((s.putByte p (loByte v)).putByte p' (hiByte v)) = Reg16.sp.regs s := by
    simp [Reg16.regs]
  rwa [same_sp] at moved

/-- `pending_ssow` in the words of R338. -/
theorem warns_iff {sp : Word} : s.warns sp = true ↔
    s.mode = .system ∧ s.tcr.getLsbD s.cfg.tcrS = true ∧ (sp, s.slr) ∈ s.cfg.stackWarn := by
  simp [State.warns, State.stackWarns, and_assoc]

/-- Warned or not, the call that is taken leaves one state: the push, then the jump (R260, R338). -/
theorem callTaken_of_reach (m : MemOperand) (hp : s.reach s.curData .write (s.sp - 2) = .ok p)
    (hp' : s.reach s.curData .write (s.sp - 2 + 1) = .ok p') :
    callTaken len m s =
      if s.warns (s.sp - 2) then
        .fault (.systemStackOverflowWarning ((s.pushed p p' (s.pcNext len)).jump (ea len m s)))
      else .next ((s.pushed p p' (s.pcNext len)).jump (ea len m s)) := by
  rw [callTaken, push16_of_reach _ hp hp', settle_ok]
  rfl

end

/-! ### The statements -/

/-- Settles O49: a jump writes nothing but PC and `ei_shadow`, and the condition chooses the address. -/
theorem jumpResult : Obligations.JumpResult := by
  intro i len c g hi s
  refine ⟨_, hi.exec_eq_jump, rfl, fun fails => ?_, fun m holds hg => ?_, fun d holds hg => ?_, rfl, .of_eq rfl rfl,
    unchanged_jump s _, rfl⟩
  · simp [fails, State.pcNext]
  · simp [holds, hg, JumpTarget.addr, target]
  · simpa [holds, hg, JumpTarget.addr] using shortTarget_toNat len d s

/-- Settles O50: B is counted down first, and the jump leaves it and the flags. -/
theorem decrementJumpResult : Obligations.DecrementJumpResult := by
  intro d s
  refine ⟨_, (exec_djnz s d).trans (decrementJump_eq_jump 2 d s), by simp, rfl, fun more => ?_, fun last => ?_,
    by simp [SameFlags], .of_eq (by simp) (by simp), (unchanged_setReg8 s .b _).trans (unchanged_jump _ _),
    by simp [SameTrace]⟩
  · rw [pc_jump, if_neg more]
    exact shortTarget_toNat 2 d s
  · rw [pc_jump, if_pos last]
    rfl

/-- Settles O48: where the call is taken, the warning decides only how its state is reported. -/
theorem callResult : Obligations.CallResult := by
  intro i len c m hi s
  refine ⟨fun fails => ?_, fun p p' holds hm hp hp' => ?_⟩
  · have executed : exec i s = .next (s.advance len) := by
      rw [hi.exec_eq, fails]
      rfl
    exact ⟨_, executed, rfl, .of_eq rfl rfl, completed_advance len rfl, unchanged_advance s len, rfl⟩
  · have executed : exec i s = callTaken len m s := by
      rw [hi.exec_eq, holds]
      rfl
    rw [executed, callTaken_of_reach m hp hp', ← warns_iff]
    exact ⟨_, fun quiet => if_neg quiet, fun warned => if_pos warned, rfl, rfl, by simp,
      (storedWord_pushed hm _).congr rfl rfl, by simp [SameFlags, State.pushed],
      ((unchanged_pushed _).trans (unchanged_jump _ _)).mono (by simp), rfl⟩

end Sys2Proof.Machine
end

section
/-! PROOFS. What user mode may not do (60_exceptions.md R340, R350), and the two ends of a step before its fetch (R342,
R352). A step is made of the named updates of the state (`step_moves`): in user mode none of them writes what R350
withholds, and an input is made only where it is not inhibited. -/

namespace Sys2Proof.Machine

section

variable {s t : State} {i : Instr}

/-! ### What user mode does not write -/

/-- The part of the state that R350 withholds from user mode, the rest blanked: the system stack pointer, I, R, the
control registers, `halted` and the parameters. -/
def State.withheld (s : State) : State :=
  { State.reset with
    ssp := s.ssp, i := s.i, r := s.r, msr := s.msr, isr := s.isr, itvtp := s.itvtp, slr := s.slr, iop := s.iop,
    tcr := s.tcr, bti := s.bti, btc := s.btc, ccr := s.ccr, lar := s.lar, halted := s.halted, cfg := s.cfg }

/-- The mode is a bit of MSR. -/
theorem mode_withheld (s : State) : s.withheld.mode = s.mode := rfl

theorem halted_withheld (s : State) : s.withheld.halted = s.halted := rfl

theorem look_withheld (s : State) :
    ∀ g ∈ [Reg.ssp, .i, .r, .msr, .isr, .itvtp, .slr, .iop, .tcr, .bti, .btc, .ccr, .lar],
      s.withheld.look g = s.look g := by
  simp only [List.forall_mem_cons]
  exact ⟨rfl, rfl, rfl, rfl, rfl, rfl, rfl, rfl, rfl, rfl, rfl, rfl, rfl, nofun⟩

theorem withheld_setXY (s : State) (q : XY) (v : Word) : (s.setXY q v).withheld = s.withheld := by cases q <;> rfl

/-- In user mode the stack pointer in use is USP (10_state.md R34). -/
theorem withheld_setSP (hm : s.mode = .user) (v : Word) : (s.setSP v).withheld = s.withheld := by
  simp [State.withheld, hm]

theorem Moves.withheld (h : Moves s t) (hm : s.mode = .user) : t.withheld = s.withheld := by
  induction h with
  | refl => rfl
  | @setSP t _ v ih =>
    have user : t.mode = .user := by rw [← mode_withheld, ih, mode_withheld, hm]
    exact (withheld_setSP user v).trans ih
  | setXY _ q v ih => exact (withheld_setXY _ q v).trans ih
  | control _ hs _ _ => cases hs.symm.trans hm
  | setAF _ _ ih | setGP _ _ ih | drawn _ ih | jump _ _ ih | putByte _ _ _ ih | ioDone _ _ _ _ ih | swapAF _ _ ih
  | swapRF _ _ ih => exact ih

/-- Where inputs are inhibited no transaction is made. -/
theorem Moves.ioTrace_of_inhibited (h : Moves s t) (inhibited : s.inhibited) : t.ioTrace = s.ioTrace := by
  induction h with
  | refl => rfl
  | ioDone _ allowed _ _ _ => exact absurd inhibited allowed
  | setXY _ q v ih => exact (ioTrace_setXY _ q v).trans ih
  | control _ hs _ _ => cases hs.symm.trans inhibited.1
  | setAF _ _ ih | setGP _ _ ih | setSP _ _ ih | drawn _ ih | jump _ _ ih | putByte _ _ _ ih | swapAF _ _ ih
  | swapRF _ _ ih => exact ih

/-! ### Privileged instructions in user mode -/

theorem exec_of_alwaysPrivileged (hi : alwaysPrivileged i = true) (hm : s.mode = .user) :
    exec i s = raise .privileged s := by
  cases i with
  | ldudAHl | ldudASx | ldudHlA | ldudSxA | ldupAHl | ldupASx | ldupHlA | ldupSxA | di | diMask | ei | eiMask | halt
  | im0 | im1 | im2 | im3 | ldIA | ldRfA | ldAI | ldARf | ldctlHlC | ldctlXyC | ldctlCHl | ldctlCXy | ldctlHlUsp
  | ldctlXyUsp | ldctlUspHl | ldctlUspXy => exact privCheck_user hm _
  | _ => cases hi

theorem exec_of_inhibited_input (hi : isInput i = true) (inhibited : s.inhibited) : exec i s = raise .privileged s := by
  cases i with
  | inR | inRx | inDa | inX | inRa | inSr | inBx | inAN | inw | ini | iniw | ind | indw | inir | inirw | indr
  | indrw => exact ioPrivCheck_inhibited inhibited _
  | _ => cases hi

/-- A trap that leaves PC open leaves the rest as it found it (R331). -/
theorem openPC_restored (s : State) : { s.openPC with pc := s.pc, freeCount := s.freeCount } = s := rfl

/-! ### Before the fetch -/

theorem step_of_halted (h : s.halted = true) : step s = .next s := step_eq_next.mpr (.inl ⟨h, rfl⟩)

theorem step_of_single_step (hh : s.halted = false) (hs : s.msr.getLsbD s.cfg.msrSS = true) :
    step s = raise .singleStep s := by
  rw [step, if_neg (by rw [hh]; exact Bool.false_ne_true), if_pos hs]

end

/-! ### The statements -/

/-- Settles O9: the mode, `halted` and the registers of R350 are in the part that user mode does not write. -/
theorem userModeConfined : Obligations.UserModeConfined := by
  intro s t hm h
  have moves := step_moves h
  have kept := moves.withheld hm
  refine ⟨?mode, ?halted, fun g hg => ?_, fun inhibit => moves.ioTrace_of_inhibited ⟨hm, inhibit⟩⟩
  case mode => rw [← mode_withheld, kept, mode_withheld, hm]
  case halted => rw [← halted_withheld, kept, halted_withheld]
  calc t.look g = t.withheld.look g := (look_withheld t g hg).symm
    _ = s.withheld.look g := by rw [kept]
    _ = s.look g := look_withheld s g hg

/-- Settles O11: the check of each privileged instruction and of each input stands before everything else it does. -/
theorem privilegedTrapsInUserMode : Obligations.PrivilegedTrapsInUserMode := by
  rintro i s hm (always | ⟨input, inhibit⟩)
  · exact ⟨s.openPC, exec_of_alwaysPrivileged always hm, openPC_restored s⟩
  · exact ⟨s.openPC, exec_of_inhibited_input input ⟨hm, inhibit⟩, openPC_restored s⟩

/-- Settles O6: the two tests of a step that come before its fetch. -/
theorem haltedAndSingleStep : Obligations.HaltedAndSingleStep :=
  ⟨fun _ => step_of_halted, fun _ => step_of_single_step⟩

end Sys2Proof.Machine
end

section
/-! PROOFS. The input group (47_io.md R280 to R291). Every input makes one transaction and then does with its
value what a load does with the byte or word it reads; the transaction changes the I/O trace and nothing else, so that a
frame from the state after it is one from the state before it. -/

namespace Sys2Proof.Machine

section

variable {s t u : State} {i : Instr} {len : Nat} {d : Dir} {rep : Bool} {p p' : PhysAddr}

/-! ### The transaction -/

/-- The byte that the environment answers to the next transaction. -/
abbrev State.inputByte (s : State) (addr : IoAddr) : Byte := loByte (Config.ioIn s.ioTrace.length addr .byte)

/-- The word that the environment answers to the next transaction. -/
abbrev State.inputWord (s : State) (addr : IoAddr) : Word := Config.ioIn s.ioTrace.length addr .word

theorem loByte_setWidth (b : Byte) : loByte (b.setWidth 16) = b := by
  apply BitVec.eq_of_toNat_eq
  have := b.isLt
  rw [loByte_toNat, BitVec.toNat_setWidth]
  omega

/-- A byte transaction answers eight bits (R281). -/
theorem loByte_ioValue (s : State) (addr : IoAddr) : loByte (s.ioValue addr .byte) = s.inputByte addr :=
  loByte_setWidth _

theorem writable8_ioDone {dst : Loc8} (a : IoAddr) (w : IoWidth) :
    Writable8 len dst (s.ioDone a w) ↔ Writable8 len dst s := by
  cases dst with
  | reg r => rfl
  | rx q k => rfl
  | mem m => cases m <;> rfl

theorem Wrote8.of_ioDone {dst : Loc8} {v : Byte} {a : IoAddr} {w : IoWidth} (h : Wrote8 len dst v (s.ioDone a w) t) :
    Wrote8 len dst v s t := by
  cases dst with
  | reg r => exact h
  | rx q k => exact h
  | mem m => cases m <;> exact h

theorem Wrote8.putFlags {dst : Loc8} {v : Byte} (h : Wrote8 len dst v s t) (g : Flags → Flags) :
    Wrote8 len dst v s (t.putFlags g) :=
  h.congr (reg8_putFlags t g) (half_putFlags t g) rfl rfl

theorem Unchanged.of_ioDone {l : List Reg} {a : IoAddr} {w : IoWidth} (h : Unchanged l (s.ioDone a w) t) :
    Unchanged l s t :=
  (unchanged_ioDone s a w).trans h

/-! ### IN and INW -/

theorem inputC_of_write {dst : Loc8} (allowed : ¬s.inhibited)
    (hw : wr8 len dst (s.inputByte s.portBC) (s.ioDone s.portBC .byte) = .ok u) :
    inputC len dst s =
      .next ((u.putFlags fun f =>
        { f with
          s := (s.inputByte s.portBC).getLsbD 7, z := decide (s.inputByte s.portBC = 0), h := false,
          pv := parityEven (s.inputByte s.portBC), n := false }).advance len) := by
  simp only [inputC, ioPrivCheck_open allowed, loByte_ioValue, hw, settle_ok]

theorem inputA_open (allowed : ¬s.inhibited) (n : Byte) :
    inputA len n s =
      .next (((s.ioDone (s.ioAddr s.a n) .byte).setA (s.inputByte (s.ioAddr s.a n))).advance len) := by
  simp only [inputA, ioPrivCheck_open allowed, loByte_ioValue]

theorem inputHL_external (allowed : ¬s.inhibited) (external : s.wordInputExternal = true) :
    inputHL len s =
      .next (((s.ioDone s.portBC .byte).drawn.setHL
        (joinBytes (s.inputByte s.portBC) (loByte s.anyWord))).advance len) := by
  simp only [inputHL, ioPrivCheck_open allowed, loByte_ioValue, external, if_true]

theorem inputHL_word (allowed : ¬s.inhibited) (whole : s.wordInputExternal = false) :
    inputHL len s =
      .next (((s.ioDone s.portBC .word).setHL
        (joinBytes (loByte (s.inputWord s.portBC)) (hiByte (s.inputWord s.portBC)))).advance len) := by
  rw [inputHL, ioPrivCheck_open allowed, whole]
  rfl

/-- The negation of `wordInputExternal_iff`: the word is input whole. -/
theorem wordInputExternal_eq_false_iff :
    s.wordInputExternal = false ↔ s.cfg.bus16 = true ∨ s.iop = 0xFE ∨ s.iop = 0xFF := by
  rw [← Bool.not_eq_true, wordInputExternal_iff]
  simp only [not_and_or, ne_eq, not_not, Bool.not_eq_false]

/-! HL written as two bytes, and the advance. -/

theorem h_setHL_advance (u : State) (hi lo : Byte) : ((u.setHL (joinBytes hi lo)).advance len).reg8 .h = hi := by
  simp [State.reg8]

theorem l_setHL_advance (u : State) (hi lo : Byte) : ((u.setHL (joinBytes hi lo)).advance len).reg8 .l = lo := by
  simp [State.reg8]

theorem unchanged_setHL_advance (before : Unchanged [] s u) (v : Word) :
    Unchanged [.r8 .h, .r8 .l] s ((u.setHL v).advance len) :=
  (before.trans (unchanged_setReg16 u .hl v)).advance

/-! ### The state after a block input -/

section

variable {n : Word}

@[simp] theorem hl_afterInput (t : State) : (afterInput d n t).hl = d.move t.hl n := by
  simp [afterInput, State.setReg8]

@[simp] theorem b_afterInput (t : State) : (afterInput d n t).reg8 .b = t.reg8 .b - 1 := by
  simp [afterInput]

@[simp] theorem pc_afterInput (t : State) : (afterInput d n t).pc = t.pc := rfl

@[simp] theorem mem_afterInput (t : State) : (afterInput d n t).mem = t.mem := rfl

@[simp] theorem written_afterInput (t : State) : (afterInput d n t).written = t.written := rfl

@[simp] theorem ioTrace_afterInput (t : State) : (afterInput d n t).ioTrace = t.ioTrace := rfl

theorem flagsAre_afterInput (t : State) :
    FlagsAre (afterInput d n t) t.f.s (decide (t.reg8 .b = 1)) t.f.h t.f.pv true t.f.c := by
  rw [FlagsAre, afterInput, f_putFlags]
  exact ⟨rfl, decide_eq_decide.mpr sub_eq_zero, rfl, rfl, rfl, rfl⟩

theorem unchanged_afterInput (t : State) : Unchanged [.r8 .b, .r8 .h, .r8 .l] t (afterInput d n t) :=
  ((unchanged_setReg16 t .hl _).trans (unchanged_setReg8 _ .b _)).trans (unchanged_putFlags _ _) |>.mono
    (by simp [Reg16.regs])

end

/-! ### One iteration where its stores succeed -/

/-- The state after an iteration begun in `s` whose value has been stored in `u`. -/
def blockInputEnd (d : Dir) (n : Word) (rep : Bool) (s u : State) : State :=
  iterationEnd 2 (rep && decide (s.reg8 .b - 1 ≠ 0)) (afterInput d n u)

theorem blockInput_of_reach (allowed : ¬s.inhibited) (hp : s.reach s.curData .write s.hl = .ok p) :
    blockInput d rep s =
      .next (blockInputEnd d 1 rep s ((s.ioDone s.portBC .byte).putByte p (s.inputByte s.portBC))) := by
  have stored := writeByte_of_reach (s := s.ioDone s.portBC .byte) (b := s.inputByte s.portBC) hp
  simp only [blockInput, ioPrivCheck_open allowed, loByte_ioValue, stored, settle_ok, blockInputEnd]

theorem blockInputWord_of_reach (allowed : ¬s.inhibited) (whole : s.wordInputExternal = false)
    (hp : s.reach s.curData .write s.hl = .ok p) (hp' : s.reach s.curData .write (s.hl + 1) = .ok p') :
    blockInputWord d rep s =
      .next (blockInputEnd d 2 rep s
        (((s.ioDone s.portBC .word).putByte p (loByte (s.inputWord s.portBC))).putByte p'
          (hiByte (s.inputWord s.portBC)))) := by
  have stored := writeWord_of_reach (s := s.ioDone s.portBC .word) (v := s.inputWord s.portBC) hp hp'
  rw [blockInputWord, ioPrivCheck_open allowed, whole, if_neg Bool.false_ne_true]
  exact congrArg (settle · _ _) stored

theorem blockInputWord_external (allowed : ¬s.inhibited) (external : s.wordInputExternal = true) :
    blockInputWord d rep s = .refused .wordInputOnByteBus := by
  rw [blockInputWord, ioPrivCheck_open allowed, external, if_pos rfl]

@[simp] theorem b_iterationEnd {again : Bool} (t : State) : (iterationEnd len again t).reg8 .b = t.reg8 .b := by
  cases again <;> simp [iterationEnd]

section

variable {n : Word}

theorem mem_blockInputEnd : (blockInputEnd d n rep s u).mem = u.mem :=
  (mem_iterationEnd _).trans (mem_afterInput u)

theorem written_blockInputEnd : (blockInputEnd d n rep s u).written = u.written :=
  (written_iterationEnd _).trans (written_afterInput u)

theorem ioTrace_blockInputEnd : (blockInputEnd d n rep s u).ioTrace = u.ioTrace :=
  (ioTrace_iterationEnd _).trans (ioTrace_afterInput u)

theorem hl_blockInputEnd : (blockInputEnd d n rep s u).hl = d.move u.hl n := by
  rw [blockInputEnd, hl_iterationEnd, hl_afterInput]

/-- What an iteration leaves, whatever was stored. -/
theorem blockInputEnd_spec (d : Dir) (n : Word) (rep : Bool) (frame : Unchanged [] s u) (b : u.reg8 .b = s.reg8 .b)
    (flags : u.f = s.f) (pc : u.pc = s.pc) :
    (blockInputEnd d n rep s u).reg8 .b = s.reg8 .b - 1
      ∧ FlagsAre (blockInputEnd d n rep s u) s.f.s (decide (s.reg8 .b = 1)) s.f.h s.f.pv true s.f.c
      ∧ ((rep = true ∧ s.reg8 .b ≠ 1 ∧ (blockInputEnd d n rep s u).pc = s.pc)
        ∨ ((rep = false ∨ s.reg8 .b = 1) ∧ Completed 2 s (blockInputEnd d n rep s u)))
      ∧ Unchanged [.r8 .b, .r8 .h, .r8 .l] s (blockInputEnd d n rep s u) := by
  have more : s.reg8 .b - 1 ≠ 0 ↔ s.reg8 .b ≠ 1 := sub_ne_zero
  have written := flagsAre_afterInput (d := d) (n := n) u
  rw [b, flags] at written
  refine ⟨by rw [blockInputEnd, b_iterationEnd, b_afterInput, b], written.iterationEnd, ?_,
    (frame.trans (unchanged_afterInput u)).iterationEnd⟩
  have ends := iterationEnd_repeats_or_completes 2 rep (s.reg8 .b ≠ 1)
    ((pc_afterInput (d := d) (n := n) u).trans pc)
  rw [blockInputEnd, decide_eq_decide.mpr more]
  simpa only [ne_eq, not_not] using ends

end

end

/-! ### The statements -/

/-- Settles O51: the operand is written after the transaction, as a load writes it, and then the flags. -/
theorem inputToOperand : Obligations.InputToOperand := by
  rintro i len dst hi s _ allowed hm hw rfl
  obtain ⟨u, hu, wrote, frame, flags, pc, trace⟩ :=
    wr8_of_writable (s.inputByte s.portBC) ((writable8_ioDone s.portBC .byte).mpr hw) hm
  refine ⟨_, hi.exec_eq.trans (inputC_of_write allowed hu), (wrote.of_ioDone.putFlags _).advance, trace, ?_,
    completed_advance len pc, frame.of_ioDone.putFlags_advance _⟩
  rw [← parityEven_eq_countP]
  exact flagsAre_putFlags_advance flags _

/-- Settles O52: A and HL take the value after the transaction; the bus says whether it fills both halves of HL. -/
theorem inputToRegisters : Obligations.InputToRegisters := by
  constructor
  · intro n s allowed
    have held : (((s.ioDone (s.ioAddr s.a n) .byte).setA (s.inputByte (s.ioAddr s.a n))).advance 2).a
        = s.inputByte (s.ioAddr s.a n) := by simp
    refine ⟨_, inputA_open allowed n, held, ?trace, by simp [SameFlags], .of_eq rfl rfl, completed_advance 2 rfl,
      (unchanged_setA _ _).of_ioDone.advance⟩
    case trace =>
      rw [held]
      rfl
  · intro s addr allowed haddr
    obtain rfl : addr = s.portBC := haddr
    cases hx : s.wordInputExternal with
    | true =>
      have held := h_setHL_advance (len := 2) (s.ioDone s.portBC .byte).drawn (s.inputByte s.portBC) (loByte s.anyWord)
      refine ⟨_, inputHL_external allowed hx, fun whole => ?whole, fun _ => ⟨held, ?trace⟩, by simp [SameFlags],
        .of_eq rfl rfl, completed_advance 2 rfl,
        unchanged_setHL_advance ((unchanged_ioDone s s.portBC .byte).trans (unchanged_drawn _)) _⟩
      case whole => cases hx.symm.trans (wordInputExternal_eq_false_iff.mpr whole)
      case trace =>
        rw [held]
        rfl
    | false =>
      refine ⟨_, inputHL_word allowed hx, fun _ => ⟨h_setHL_advance _ _ _, l_setHL_advance _ _ _, rfl⟩,
        fun external => ?external, by simp [SameFlags], .of_eq rfl rfl, completed_advance 2 rfl,
        unchanged_setHL_advance (unchanged_ioDone s s.portBC .word) _⟩
      case external => cases hx.symm.trans (wordInputExternal_iff.mpr external)

/-- Settles O53: the byte or the word is stored after the transaction, and what follows leaves memory alone. -/
theorem blockInputIteration : Obligations.BlockInputIteration := by
  intro i w d rep hi s addr allowed haddr
  obtain rfl : addr = s.portBC := haddr
  refine ⟨?refused, fun p p' hm hp word => ?_⟩
  case refused =>
    rintro ⟨rfl, external⟩
    exact hi.exec_eq.trans (blockInputWord_external allowed (wordInputExternal_iff.mpr external))
  cases w with
  | byte =>
    have stored := storedByte_putByte (s := s.ioDone s.portBC .byte) hm p (s.inputByte s.portBC)
    have before := (unchanged_ioDone s s.portBC .byte).trans (unchanged_putByte _ p (s.inputByte s.portBC))
    obtain ⟨b, flags, ends, frame⟩ := blockInputEnd_spec d 1 rep before (by simp) (by simp) (by simp)
    refine ⟨_, hi.exec_eq.trans (blockInput_of_reach allowed hp),
      fun _ => ⟨stored.congr mem_blockInputEnd written_blockInputEnd, ioTrace_blockInputEnd⟩, nofun, ?_, b, flags,
      ends, frame⟩
    cases d <;> simp [hl_blockInputEnd, Dir.move]
  | word =>
    obtain ⟨whole, hp'⟩ := word rfl
    have stored := storedWord_putByte (s := s.ioDone s.portBC .word) hm p p' (loByte (s.inputWord s.portBC))
      (hiByte (s.inputWord s.portBC))
    have before := ((unchanged_ioDone s s.portBC .word).trans
      (unchanged_putByte _ p (loByte (s.inputWord s.portBC)))).trans
      (unchanged_putByte _ p' (hiByte (s.inputWord s.portBC)))
    obtain ⟨b, flags, ends, frame⟩ := blockInputEnd_spec d 2 rep before (by simp) (by simp) (by simp)
    refine ⟨_,
      hi.exec_eq.trans (blockInputWord_of_reach allowed (wordInputExternal_eq_false_iff.mpr whole) hp hp'), nofun,
      fun _ => ⟨stored.congr mem_blockInputEnd written_blockInputEnd, ioTrace_blockInputEnd⟩, ?_, b, flags, ends,
      frame⟩
    cases d <;> simp [hl_blockInputEnd, Dir.move]

end Sys2Proof.Machine
end

section
/-! PROOFS. The CPU control group (48_cpu_control.md R300 to R311) in system mode, where the privilege check passes
and each instruction is one update before or after the advance. -/

namespace Sys2Proof.Machine

section

variable {s t : State} {i : Instr} {len : Nat} {w : Reg16}

/-! ### The interrupt enables -/

/-- A mask whose bit 7 is clear names enables only. -/
theorem mask_and_enables {mask : Byte} (h : mask.getLsbD 7 = false) : mask &&& 0x7F = mask := by
  revert mask
  decide

theorem getLsbD_enableBits {mask : Byte} (h : mask.getLsbD 7 = false) (msr : Word) (k : Nat) :
    (enableBits msr mask).getLsbD k = if mask.getLsbD k then true else msr.getLsbD k := by
  have inWord : mask.getLsbD k = true → k < 16 := fun hk => (BitVec.lt_of_getLsbD hk).trans (by decide)
  rw [enableBits, mask_and_enables h, BitVec.getLsbD_or, BitVec.getLsbD_setWidth]
  cases hk : mask.getLsbD k with
  | true => simp [inWord hk]
  | false => simp

theorem getLsbD_disableBits {mask : Byte} (h : mask.getLsbD 7 = false) (msr : Word) (k : Nat) :
    (disableBits msr mask).getLsbD k = if mask.getLsbD k then false else msr.getLsbD k := by
  rw [disableBits, mask_and_enables h, BitVec.getLsbD_and, BitVec.getLsbD_not, BitVec.getLsbD_setWidth]
  cases hk : mask.getLsbD k with
  | true => by_cases inWord : k < 16 <;> simp [inWord]
  | false => simpa using BitVec.lt_of_getLsbD

theorem enableInterrupts_refused {mask : Byte} (hs : s.mode = .system) (h : mask.getLsbD 7 = true) :
    enableInterrupts len mask s = .refused .maskBitSeven := by
  rw [enableInterrupts, privCheck_system hs, if_pos h]

theorem disableInterrupts_refused {mask : Byte} (hs : s.mode = .system) (h : mask.getLsbD 7 = true) :
    disableInterrupts len mask s = .refused .maskBitSeven := by
  rw [disableInterrupts, privCheck_system hs, if_pos h]

theorem enableInterrupts_enabled {mask : Byte} (hs : s.mode = .system) (h : mask.getLsbD 7 = false) :
    enableInterrupts len mask s = .next (enabled len mask s) := by
  rw [enableInterrupts, privCheck_system hs, h]
  rfl

theorem disableInterrupts_disabled {mask : Byte} (hs : s.mode = .system) (h : mask.getLsbD 7 = false) :
    disableInterrupts len mask s = .next (disabled len mask s) := by
  rw [disableInterrupts, privCheck_system hs, h]
  rfl

/-! ### The interrupt mode -/

theorem getLsbD_withInterruptMode (isr : Word) (p : BitVec 2) (k : Nat) :
    (withInterruptMode isr p).getLsbD k =
      if k = 8 then p.getLsbD 0 else if k = 9 then p.getLsbD 1 else isr.getLsbD k := by
  by_cases inWord : k < 16
  · interval_cases k <;> simp [withInterruptMode]
  · have outside (w : Word) : w.getLsbD k = false := BitVec.getLsbD_of_ge w k (Nat.le_of_not_lt inWord)
    rw [outside, outside, if_neg (by omega), if_neg (by omega)]

/-! ### A register of the control group written after the advance -/

/-- The registers that `SameButControl` leaves open: I, R, the control registers and USP. -/
def controlStateRegs : List Reg := [.i, .r, .msr, .isr, .itvtp, .slr, .iop, .tcr, .bti, .btc, .ccr, .lar, .usp]

/-- What an instruction leaves that advances and writes control state only; `kept` is about the control state that it
does not write. -/
theorem SameButControl.frame {l : List Reg} (h : SameButControl (s.advance len) t) (halted : t.halted = s.halted)
    (kept : ∀ g ∈ controlStateRegs, g ∉ l → t.look g = s.look g) :
    SameFlags s t ∧ SameMemory s t ∧ Unchanged l s t ∧ SameTrace s t := by
  have same (g : Reg) (hg : g ∉ l) : t.look g = s.look g := by
    cases g with
    | r8 | alt | half | ssp | afSel | rfSel => rw [h]; rfl
    | _ => exact kept _ (by simp [controlStateRegs]) hg
  rw [h] at same halted ⊢
  exact ⟨rfl, .of_eq rfl rfl, ⟨same, rfl, halted, rfl, rfl⟩, rfl⟩

theorem SameButControl.completed_frame {l : List Reg} (h : SameButControl (s.advance len) t)
    (halted : t.halted = s.halted) (shadow : t.eiShadow = false)
    (kept : ∀ g ∈ controlStateRegs, g ∉ l → t.look g = s.look g) :
    SameFlags s t ∧ SameMemory s t ∧ Completed len s t ∧ Unchanged l s t ∧ SameTrace s t := by
  obtain ⟨flags, mem, regs, trace⟩ := h.frame halted kept
  have pc : t.pc = s.pcNext len := by rw [h]; rfl
  exact ⟨flags, mem, ⟨pc, shadow⟩, regs, trace⟩

/-! ### LD A,I and LD A,R -/

theorem readSpecial_system (hs : s.mode = .system) (v : Byte) :
    ∃ t : State, readSpecial len v s = .next t ∧ t.a = v
      ∧ FlagsAre t (v.getLsbD 7) (decide (v = 0)) false (s.msr.getLsbD s.cfg.msrIEA) false s.f.c
      ∧ SameMemory s t ∧ Completed len s t ∧ Unchanged [.r8 .a] s t ∧ SameTrace s t :=
  ⟨_, privCheck_system hs _, (a_putFlags_advance _).trans (a_setA v), flagsAre_putFlags_advance (f_setA v) _,
    frame_setA_putFlags_advance s len v _⟩

/-! ### LDCTL with USP -/

theorem ReadUspForm.exec_eq (h : ReadUspForm i len w) : exec i s = loadFromUsp len w s := by cases h <;> rfl

theorem WriteUspForm.exec_eq (h : WriteUspForm i len w) : exec i s = loadToUsp len w s := by cases h <;> rfl

/-! ### HALT -/

theorem haltCpu_halts (hs : s.mode = .system) (quiet : s.msr.getLsbD s.cfg.msrBH = false) :
    haltCpu len s = .next { s.advance len with halted := true } := by
  rw [haltCpu, privCheck_system hs, quiet]
  rfl

theorem haltCpu_traps (hs : s.mode = .system) (breaks : s.msr.getLsbD s.cfg.msrBH = true) :
    haltCpu len s = raise .breakpointOnHalt s := by
  rw [haltCpu, privCheck_system hs, if_pos breaks]

end

/-! ### The statements -/

/-- Settles O54: EI and DI are one operation each over the mask, which is 7F where none is written. -/
theorem interruptEnables : Obligations.InterruptEnables := by
  intro s mask hs
  refine ⟨fun h7 => ⟨enableInterrupts_refused hs h7, disableInterrupts_refused hs h7⟩, ?_⟩
  intro i enable len forms h7
  have one_of : (enable = true ∧ exec i s = enableInterrupts len mask s)
      ∨ (enable = false ∧ exec i s = disableInterrupts len mask s) := by
    obtain ⟨rfl, rfl, rfl, rfl⟩ | ⟨rfl, rfl, rfl⟩ | ⟨rfl, rfl, rfl, rfl⟩ | ⟨rfl, rfl, rfl⟩ := forms
    · exact .inl ⟨rfl, rfl⟩
    · exact .inl ⟨rfl, rfl⟩
    · exact .inr ⟨rfl, rfl⟩
    · exact .inr ⟨rfl, rfl⟩
  obtain ⟨rfl, executed⟩ | ⟨rfl, executed⟩ := one_of
  · exact ⟨_, executed.trans (enableInterrupts_enabled hs h7), getLsbD_enableBits h7 s.msr, rfl, rfl,
      SameButControl.frame (len := len) rfl rfl (by simp [controlStateRegs, enabled, State.look])⟩
  · exact ⟨_, executed.trans (disableInterrupts_disabled hs h7), getLsbD_disableBits h7 s.msr, rfl, rfl,
      SameButControl.frame (len := len) rfl rfl (by simp [controlStateRegs, disabled, State.look])⟩

/-- Settles O56: the four forms differ in the mode they put. -/
theorem interruptModeResult : Obligations.InterruptModeResult := by
  intro i p forms s hs
  have executed : exec i s = setInterruptMode 2 p s := by
    obtain ⟨rfl, rfl⟩ | ⟨rfl, rfl⟩ | ⟨rfl, rfl⟩ | ⟨rfl, rfl⟩ := forms <;> rfl
  exact ⟨_, executed.trans (privCheck_system hs _), getLsbD_withInterruptMode s.isr p,
    SameButControl.completed_frame (len := 2) rfl rfl rfl (by simp [controlStateRegs, State.look])⟩

/-- Settles O55: the trap finds the state as it was, and leaves PC open. -/
theorem haltResult : Obligations.HaltResult :=
  fun s hs => ⟨haltCpu_halts hs, fun breaks => ⟨s.openPC, haltCpu_traps hs breaks, openPC_restored s⟩⟩

/-- Settles O57: I and R are control state written after the advance; A takes either of them with its flags. -/
theorem specialRegisterLoads : Obligations.SpecialRegisterLoads := by
  intro s hs
  refine ⟨⟨_, privCheck_system hs _, rfl, ?i⟩, ⟨_, privCheck_system hs _, rfl, ?r⟩, readSpecial_system hs s.i,
    readSpecial_system hs s.r⟩
  case i => exact SameButControl.completed_frame (len := 2) rfl rfl rfl (by simp [controlStateRegs, State.look])
  case r => exact SameButControl.completed_frame (len := 2) rfl rfl rfl (by simp [controlStateRegs, State.look])

/-- Settles O60: one direction writes a 16-bit register operand, the other control state. -/
theorem userStackPointerLoads : Obligations.UserStackPointerLoads := by
  constructor
  · intro i len w hi s hs
    exact ⟨_, hi.exec_eq.trans (privCheck_system hs _), by simp, by simp [SameFlags], .of_eq (by simp) (by simp),
      completed_advance len (by simp), (unchanged_setReg16 s w s.usp).advance, by simp [SameTrace]⟩
  · intro i len w hi s hs
    exact ⟨_, hi.exec_eq.trans (privCheck_system hs _), rfl,
      SameButControl.completed_frame (len := len) rfl rfl rfl (by simp [controlStateRegs, State.look])⟩

end Sys2Proof.Machine
end
